-- ==== Sys2Proof/Word.lean ====
section
/-! DEFINITION. The value types of the block: Bit, Word and the Word constants (R6, R7, R10, R14, R15). -/

namespace Sys2Proof

/-- A Bit has exactly two values, `O` (false) and `I` (true) (R6, R14). -/
abbrev Bit := Bool

/-- The Bit `O`: false, the number 0 (R6). -/
abbrev Bit.O : Bit := false

/-- The Bit `I`: true, the number 1 (R6). -/
abbrev Bit.I : Bit := true

/-- A Word is 16 Bits. Source index `i` (0 = most significant) stands at bit-vector position
`15 - i`, the position of weight `2^(15-i)` (R7, R15, D2). -/
abbrev Word := BitVec 16

/-- The Word of sixteen `O` (R10). -/
abbrev zero16 : Word := 0#16

/-- The Word of sixteen `I` (R10). -/
abbrev ones16 : Word := 0xFFFF#16

/-- The Word with only index 15 set, the source's "word-constant 0…01" (R10). -/
abbrev one16 : Word := 1#16

end Sys2Proof
end

