-- ==== Sys2Proof/Machine/Bits.lean ====
section
/-! DEFINITION. Words as sequences of Bits: reading index `i`, building a Word lane by lane, and the numeric views (R7, R8, R15). -/

namespace Sys2Proof.Machine

/-- `w[i]` for a constant index `i` of 0 to 15: index 0 is the most significant Bit (R7). Indices above 15 occur only at the
boundary, where they fault before this is used (R15, R26). -/
def bit (w : Word) (i : Nat) : Bit := w.getMsbD i

/-- The Bits of a Word from index 0 to index 15, the order of the port vector (R39). -/
def wordBits (w : Word) : List Bit := (List.range 16).map (bit w)

/-- The number whose binary digits are the given Bits, the first the most significant (R7 `uval`, R37 `selval`). -/
def bitsVal (bs : List Bit) : Nat := bs.foldl (fun n b => 2 * n + b.toNat) 0

/-- The Word whose index `i` is the `i`-th Bit of a list of 16 (R7). -/
def wordOfBits (bs : List Bit) : Word := BitVec.ofNat 16 (bitsVal bs)

/-- `for i in 0..15: out[i] = f i`: a Word built lane by lane (R52 to R55). -/
def lanes (f : Nat → Bit) : Word := wordOfBits ((List.range 16).map f)

/-- The unsigned view of a Word, 0 to 65535 (R7). -/
def uval (w : Word) : Nat := w.toNat

/-- The two's-complement view of a Word, −32768 to 32767 (R7). -/
def sval (w : Word) : Int := (uval w : Int) - 65536 * (bit w 0).toNat

/-- `word(n)`: the Word with unsigned view `n mod 65536`, for any integer (R7). -/
def word (n : Int) : Word := BitVec.ofInt 16 n

end Sys2Proof.Machine
end

