-- ==== Sys2Proof/Config.lean ====
section
/-! DEFINITION. What an implementation fixes: the two open parameters of the spec (R5, D18). The spec leaves no value of a
result open (spec/93_implementation_defined.md), so there is no free value. -/

namespace Sys2Proof

/-- `NUM_CLOCKS` and `NUM_DFFS`: how many Clock and DFF instances may be created (R5, D18). They are plain data which the
state carries and no operation changes, so a statement about every state holds for every bound. -/
structure Config where
  /-- `NUM_CLOCKS` (R5, R95). -/
  numClocks : Nat
  /-- `NUM_DFFS` (R5, R98). -/
  numDffs : Nat
  deriving DecidableEq, Repr

/-- The bounds `State.reset` uses. DESIGN CHOICE (log entry 1, unsafe for a statement that leans on the numbers): the spec
gives none. -/
def Config.default : Config := { numClocks := 65536, numDffs := 65536 }

end Sys2Proof
end

