-- ==== Sys2Proof/Syntax.lean ====
section
/-! DEFINITION. The instructions, one constructor per row of spec/opcode_table.json in the table's order; the encoded operation
(block, instance operands, port vector: R35, R39, R44); and the driver-program notation of R44. -/

namespace Sys2Proof

/-- One operation with the values of its input ports (R39). The ports stand in the order of R39's port vector; a
selector's Bits are `sel0` (most significant) first (R37). A Clock or DFF operand is an instance number. -/
inductive Instr where
  -- the ALU, one row per control code `zx nx zy ny f no` (R35, R36, R68 to R75)
  /-- `ALU x&y`: code `000000` (R75, R92). -/
  | aluXAndY (x y : Word)
  /-- `ALU #000001`: code `000001` (R75). -/
  | alu000001 (x y : Word)
  /-- `ALU x+y`: code `000010` (R75, R89). -/
  | aluXPlusY (x y : Word)
  /-- `ALU #000011`: code `000011` (R75). -/
  | alu000011 (x y : Word)
  /-- `ALU #000100`: code `000100` (R75). -/
  | alu000100 (x y : Word)
  /-- `ALU #000101`: code `000101` (R75). -/
  | alu000101 (x y : Word)
  /-- `ALU #000110`: code `000110` (R75). -/
  | alu000110 (x y : Word)
  /-- `ALU y-x`: code `000111` (R75, R91). -/
  | aluYMinusX (x y : Word)
  /-- `ALU #001000`: code `001000` (R75). -/
  | alu001000 (x y : Word)
  /-- `ALU #001001`: code `001001` (R75). -/
  | alu001001 (x y : Word)
  /-- `ALU #001010`: code `001010` (R75). -/
  | alu001010 (x y : Word)
  /-- `ALU #001011`: code `001011` (R75). -/
  | alu001011 (x y : Word)
  /-- `ALU x`: code `001100` (R75, R79). -/
  | aluX (x y : Word)
  /-- `ALU !x`: code `001101` (R75, R81). -/
  | aluNotX (x y : Word)
  /-- `ALU x-1`: code `001110` (R75, R87). -/
  | aluXMinus1 (x y : Word)
  /-- `ALU -x`: code `001111` (R75, R83). -/
  | aluNegX (x y : Word)
  /-- `ALU #010000`: code `010000` (R75). -/
  | alu010000 (x y : Word)
  /-- `ALU #010001`: code `010001` (R75). -/
  | alu010001 (x y : Word)
  /-- `ALU #010010`: code `010010` (R75). -/
  | alu010010 (x y : Word)
  /-- `ALU x-y`: code `010011` (R75, R90). -/
  | aluXMinusY (x y : Word)
  /-- `ALU #010100`: code `010100` (R75). -/
  | alu010100 (x y : Word)
  /-- `ALU x|y`: code `010101` (R75, R93). -/
  | aluXOrY (x y : Word)
  /-- `ALU #010110`: code `010110` (R75). -/
  | alu010110 (x y : Word)
  /-- `ALU #010111`: code `010111` (R75). -/
  | alu010111 (x y : Word)
  /-- `ALU #011000`: code `011000` (R75). -/
  | alu011000 (x y : Word)
  /-- `ALU #011001`: code `011001` (R75). -/
  | alu011001 (x y : Word)
  /-- `ALU #011010`: code `011010` (R75). -/
  | alu011010 (x y : Word)
  /-- `ALU #011011`: code `011011` (R75). -/
  | alu011011 (x y : Word)
  /-- `ALU #011100`: code `011100` (R75). -/
  | alu011100 (x y : Word)
  /-- `ALU #011101`: code `011101` (R75). -/
  | alu011101 (x y : Word)
  /-- `ALU #011110`: code `011110` (R75). -/
  | alu011110 (x y : Word)
  /-- `ALU x+1`: code `011111` (R75, R85). -/
  | aluXPlus1 (x y : Word)
  /-- `ALU #100000`: code `100000` (R75). -/
  | alu100000 (x y : Word)
  /-- `ALU #100001`: code `100001` (R75). -/
  | alu100001 (x y : Word)
  /-- `ALU #100010`: code `100010` (R75). -/
  | alu100010 (x y : Word)
  /-- `ALU #100011`: code `100011` (R75). -/
  | alu100011 (x y : Word)
  /-- `ALU #100100`: code `100100` (R75). -/
  | alu100100 (x y : Word)
  /-- `ALU #100101`: code `100101` (R75). -/
  | alu100101 (x y : Word)
  /-- `ALU #100110`: code `100110` (R75). -/
  | alu100110 (x y : Word)
  /-- `ALU #100111`: code `100111` (R75). -/
  | alu100111 (x y : Word)
  /-- `ALU #101000`: code `101000` (R75). -/
  | alu101000 (x y : Word)
  /-- `ALU #101001`: code `101001` (R75). -/
  | alu101001 (x y : Word)
  /-- `ALU 0`: code `101010` (R75, R76). -/
  | aluZero (x y : Word)
  /-- `ALU #101011`: code `101011` (R75). -/
  | alu101011 (x y : Word)
  /-- `ALU #101100`: code `101100` (R75). -/
  | alu101100 (x y : Word)
  /-- `ALU #101101`: code `101101` (R75). -/
  | alu101101 (x y : Word)
  /-- `ALU #101110`: code `101110` (R75). -/
  | alu101110 (x y : Word)
  /-- `ALU #101111`: code `101111` (R75). -/
  | alu101111 (x y : Word)
  /-- `ALU y`: code `110000` (R75, R80). -/
  | aluY (x y : Word)
  /-- `ALU !y`: code `110001` (R75, R82). -/
  | aluNotY (x y : Word)
  /-- `ALU y-1`: code `110010` (R75, R88). -/
  | aluYMinus1 (x y : Word)
  /-- `ALU -y`: code `110011` (R75, R84). -/
  | aluNegY (x y : Word)
  /-- `ALU #110100`: code `110100` (R75). -/
  | alu110100 (x y : Word)
  /-- `ALU #110101`: code `110101` (R75). -/
  | alu110101 (x y : Word)
  /-- `ALU #110110`: code `110110` (R75). -/
  | alu110110 (x y : Word)
  /-- `ALU y+1`: code `110111` (R75, R86). -/
  | aluYPlus1 (x y : Word)
  /-- `ALU #111000`: code `111000` (R75). -/
  | alu111000 (x y : Word)
  /-- `ALU #111001`: code `111001` (R75). -/
  | alu111001 (x y : Word)
  /-- `ALU -1`: code `111010` (R75, R78). -/
  | aluNegOne (x y : Word)
  /-- `ALU #111011`: code `111011` (R75). -/
  | alu111011 (x y : Word)
  /-- `ALU #111100`: code `111100` (R75). -/
  | alu111100 (x y : Word)
  /-- `ALU #111101`: code `111101` (R75). -/
  | alu111101 (x y : Word)
  /-- `ALU #111110`: code `111110` (R75). -/
  | alu111110 (x y : Word)
  /-- `ALU 1`: code `111111` (R75, R77). -/
  | aluOne (x y : Word)
  -- the gates and the combinational library (R45 to R60)
  /-- `Nand` (R45). -/
  | nand (a b : Bit)
  /-- `Not` (R46). -/
  | not (a : Bit)
  /-- `And` (R47). -/
  | and (a b : Bit)
  /-- `Or` (R48). -/
  | or (a b : Bit)
  /-- `Xor` (R49). -/
  | xor (a b : Bit)
  /-- `Mux` (R50). -/
  | mux (a b sel : Bit)
  /-- `DMux` (R51). -/
  | dMux (inp sel : Bit)
  /-- `Not16` (R52). -/
  | not16 (a : Word)
  /-- `And16` (R53). -/
  | and16 (a b : Word)
  /-- `Or16` (R54). -/
  | or16 (a b : Word)
  /-- `Mux16` (R55). -/
  | mux16 (a b : Word) (sel : Bit)
  /-- `Or8Way` (R56). -/
  | or8Way (in0 in1 in2 in3 in4 in5 in6 in7 : Bit)
  /-- `Mux4Way16` (R57). -/
  | mux4Way16 (in0 in1 in2 in3 : Word) (sel0 sel1 : Bit)
  /-- `Mux8Way16` (R58). -/
  | mux8Way16 (in0 in1 in2 in3 in4 in5 in6 in7 : Word) (sel0 sel1 sel2 : Bit)
  /-- `DMux4Way` (R59). -/
  | dMux4Way (inp sel0 sel1 : Bit)
  /-- `DMux8Way` (R60). -/
  | dMux8Way (inp sel0 sel1 sel2 : Bit)
  -- word arithmetic (R62 to R65)
  /-- `HalfAdder` (R62). -/
  | halfAdder (a b : Bit)
  /-- `FullAdder` (R63). -/
  | fullAdder (a b c : Bit)
  /-- `Add16` (R64). -/
  | add16 (a b : Word)
  /-- `Inc16` (R65). -/
  | inc16 (a : Word)
  -- Clock and DFF events (R95 to R101)
  /-- `Clock.new` (R95). -/
  | clockNew
  /-- `Clock.next` (R96). -/
  | clockNext (c : Nat)
  /-- `Clock.phase` (R97). -/
  | clockPhase (c : Nat)
  /-- `DFF.new` (R98). -/
  | dffNew
  /-- `DFF.input` (R99, R100). -/
  | dffInput (d : Nat) (value : Bit) (c : Nat)
  /-- `DFF.output` (R101). -/
  | dffOutput (d : Nat) (c : Nat)
  deriving DecidableEq, Repr

/-- An operation as it stands in an encoded driver program (R44: "the list of its operations, with each ALU call's control code
and each component's port vector"). -/
structure Encoded where
  /-- Which block is instantiated, as the row number of spec/opcode_table.json: 0 to 63 are the packed ALU control codes (R36),
  64 to 83 the component rows, 84 to 89 the event rows. DESIGN CHOICE (log entry 5): the spec numbers only the ALU codes. -/
  row : Nat
  /-- The DFF operand, then the Clock operand, of an event row, in the order R39 lists them. -/
  refs : List Nat
  /-- The port vector (R39): the input ports concatenated, each Word from index 0 to index 15. -/
  ports : List Bit
  deriving DecidableEq, Repr

/-- Why an encoded operation is no instruction. -/
inductive DecodeError where
  /-- The block is no row of the table: no other component exists (R61, D20). Raised by `decode`. -/
  | unknownBlock (row : Nat)
  /-- The wrong number of Clock and DFF operands for the row (R39). Raised by `decode`. -/
  | refCount (row expected got : Nat)
  /-- A port vector of the wrong length, a selector of another length among them (R37, R39, D24). Raised by `decode`. -/
  | portCount (row expected got : Nat)
  deriving DecidableEq, Repr

/-- One token of a Word literal (R43): '0', '1' or anything else (log entry 17). -/
inductive Token where
  | zero
  | one
  | other
  deriving DecidableEq, Repr

/-- An output port a driver expression may select (R39, R44). -/
inductive Port where
  | out
  | zr
  | ng
  | carry
  | sum
  /-- The port `phase` of `Clock.phase`. -/
  | phase
  /-- `out0` to `out7` of the demultiplexers. -/
  | outAt (k : Nat)
  deriving DecidableEq, Repr

/-- A name of a driver program (R44). Names are numbered; `elem n k` is the notation's `R[k]`, and `scratch` is the name `t` of
the expansion of `input16`. -/
inductive Name where
  | plain (n : Nat)
  | elem (n k : Nat)
  | scratch
  deriving DecidableEq, Repr

mutual
/-- A driver expression (R44). The literal forms `tokens`, `number` and `index` are the boundary operations of R103. -/
inductive Expr where
  /-- The Bit literal `O` or `I`. -/
  | bit (b : Bit)
  /-- A Word written as `0xHHHH` (R11). -/
  | word (w : Word)
  /-- A Word built from a string of tokens (R43). -/
  | tokens (ts : List Token)
  /-- A Bit built from an external number (R14; log entry 19). -/
  | number (n : Int)
  /-- A name bound by `let`. -/
  | name (n : Name)
  /-- An output port of a component's result. -/
  | port (e : Expr) (p : Port)
  /-- The Bit `w[i]` of a Word (R15), `i` a number the caller computed (log entry 19). -/
  | index (e : Expr) (i : Nat)
  /-- Bits side by side: a selector `(s0, s1)`, the eight inputs of `Or8Way`, or, when there are 16, a Word (`output16`).
  Log entry 13. -/
  | pack (es : Args)
  /-- `Component(arguments)`, the component by its row of the table. -/
  | call (row : Nat) (args : Args)
  /-- `output D, C`: DFF.output (R101). -/
  | output (d c : Name)
  /-- `phase C`: Clock.phase (R97). -/
  | phase (c : Name)
  deriving DecidableEq, Repr

/-- A list of driver expressions, a component's arguments in port order. -/
inductive Args where
  | nil
  | cons (e : Expr) (es : Args)
  deriving DecidableEq, Repr
end

mutual
/-- A driver statement (R44). -/
inductive Stmt where
  /-- An operation given by its encoding, its operands instance numbers and port values. -/
  | op (e : Encoded)
  /-- `clock C` (R95). -/
  | clock (c : Name)
  /-- `dff D` (R98). -/
  | dff (d : Name)
  /-- `next C` (R96). -/
  | next (c : Name)
  /-- `input D, bexpr, C` (R99, R100). -/
  | input (d : Name) (e : Expr) (c : Name)
  /-- `let name = expr`. -/
  | letE (n : Name) (e : Expr)
  /-- `repeat n` and its body. -/
  | loop (n : Nat) (body : Prog)
  /-- `if bexpr` and its two branches. -/
  | ifElse (e : Expr) (yes no : Prog)
  deriving DecidableEq, Repr

/-- A driver program: statements in order (R30, R44). -/
inductive Prog where
  | nil
  | cons (s : Stmt) (p : Prog)
  deriving DecidableEq, Repr
end

end Sys2Proof
end

