-- ==== Sys2Proof/Machine/Ports.lean ====
section
/-! DEFINITION. The port table of R39: for each row of spec/opcode_table.json, how many Clock and DFF operands it has and the
widths of its input ports, in order. -/

namespace Sys2Proof.Machine

/-- A row's operands: the number of instance operands and the widths of its input ports in port-vector order (R39). -/
structure RowShape where
  refs : Nat
  ports : List Nat
  deriving DecidableEq, Repr

/-- The number of ALU rows: one for each 6-Bit control code (R35, R36). -/
def aluRows : Nat := 64

/-- The component rows in the table's order, from row 64 on (R39). -/
def componentShapes : List RowShape :=
  [ ⟨0, [1, 1]⟩,  -- Nand
    ⟨0, [1]⟩,  -- Not
    ⟨0, [1, 1]⟩,  -- And
    ⟨0, [1, 1]⟩,  -- Or
    ⟨0, [1, 1]⟩,  -- Xor
    ⟨0, [1, 1, 1]⟩,  -- Mux
    ⟨0, [1, 1]⟩,  -- DMux
    ⟨0, [16]⟩,  -- Not16
    ⟨0, [16, 16]⟩,  -- And16
    ⟨0, [16, 16]⟩,  -- Or16
    ⟨0, [16, 16, 1]⟩,  -- Mux16
    ⟨0, [8]⟩,  -- Or8Way
    ⟨0, [16, 16, 16, 16, 2]⟩,  -- Mux4Way16
    ⟨0, [16, 16, 16, 16, 16, 16, 16, 16, 3]⟩,  -- Mux8Way16
    ⟨0, [1, 2]⟩,  -- DMux4Way
    ⟨0, [1, 3]⟩,  -- DMux8Way
    ⟨0, [1, 1]⟩,  -- HalfAdder
    ⟨0, [1, 1, 1]⟩,  -- FullAdder
    ⟨0, [16, 16]⟩,  -- Add16
    ⟨0, [16]⟩ ]  -- Inc16

/-- The event rows in the table's order, from row 84 on (R39). -/
def eventShapes : List RowShape :=
  [ ⟨0, []⟩,  -- Clock.new
    ⟨1, []⟩,  -- Clock.next
    ⟨1, []⟩,  -- Clock.phase
    ⟨0, []⟩,  -- DFF.new
    ⟨2, [1]⟩,  -- DFF.input
    ⟨2, []⟩ ]  -- DFF.output

/-- The operands of a row; `none` for a number that is no row (R61, D20). -/
def rowShape (row : Nat) : Option RowShape :=
  if row < aluRows then some ⟨0, [16, 16]⟩ else (componentShapes ++ eventShapes)[row - aluRows]?

/-- The row is a combinational component: an ALU code or a component row, not an event (R44 `Component`). -/
def isComponentRow (row : Nat) : Bool :=
  row < aluRows + componentShapes.length

end Sys2Proof.Machine
end

