-- ==== Sys2Proof/WellFormed.lean ====
section
/-! DEFINITION. The checks an instruction, an encoded operation and a driver program can be given before they run. -/

namespace Sys2Proof

/-- An instruction names only instances that the bounds let exist (R5, D18). Every other operand is a Bit or a Word, and
"No other values are representable" (R14). -/
def Instr.wellFormed (cfg : Config) (i : Instr) : Bool :=
  match i with
  | .aluXAndY _ _ => true
  | .alu000001 _ _ => true
  | .aluXPlusY _ _ => true
  | .alu000011 _ _ => true
  | .alu000100 _ _ => true
  | .alu000101 _ _ => true
  | .alu000110 _ _ => true
  | .aluYMinusX _ _ => true
  | .alu001000 _ _ => true
  | .alu001001 _ _ => true
  | .alu001010 _ _ => true
  | .alu001011 _ _ => true
  | .aluX _ _ => true
  | .aluNotX _ _ => true
  | .aluXMinus1 _ _ => true
  | .aluNegX _ _ => true
  | .alu010000 _ _ => true
  | .alu010001 _ _ => true
  | .alu010010 _ _ => true
  | .aluXMinusY _ _ => true
  | .alu010100 _ _ => true
  | .aluXOrY _ _ => true
  | .alu010110 _ _ => true
  | .alu010111 _ _ => true
  | .alu011000 _ _ => true
  | .alu011001 _ _ => true
  | .alu011010 _ _ => true
  | .alu011011 _ _ => true
  | .alu011100 _ _ => true
  | .alu011101 _ _ => true
  | .alu011110 _ _ => true
  | .aluXPlus1 _ _ => true
  | .alu100000 _ _ => true
  | .alu100001 _ _ => true
  | .alu100010 _ _ => true
  | .alu100011 _ _ => true
  | .alu100100 _ _ => true
  | .alu100101 _ _ => true
  | .alu100110 _ _ => true
  | .alu100111 _ _ => true
  | .alu101000 _ _ => true
  | .alu101001 _ _ => true
  | .aluZero _ _ => true
  | .alu101011 _ _ => true
  | .alu101100 _ _ => true
  | .alu101101 _ _ => true
  | .alu101110 _ _ => true
  | .alu101111 _ _ => true
  | .aluY _ _ => true
  | .aluNotY _ _ => true
  | .aluYMinus1 _ _ => true
  | .aluNegY _ _ => true
  | .alu110100 _ _ => true
  | .alu110101 _ _ => true
  | .alu110110 _ _ => true
  | .aluYPlus1 _ _ => true
  | .alu111000 _ _ => true
  | .alu111001 _ _ => true
  | .aluNegOne _ _ => true
  | .alu111011 _ _ => true
  | .alu111100 _ _ => true
  | .alu111101 _ _ => true
  | .alu111110 _ _ => true
  | .aluOne _ _ => true
  | .nand _ _ => true
  | .not _ => true
  | .and _ _ => true
  | .or _ _ => true
  | .xor _ _ => true
  | .mux _ _ _ => true
  | .dMux _ _ => true
  | .not16 _ => true
  | .and16 _ _ => true
  | .or16 _ _ => true
  | .mux16 _ _ _ => true
  | .or8Way _ _ _ _ _ _ _ _ => true
  | .mux4Way16 _ _ _ _ _ _ => true
  | .mux8Way16 _ _ _ _ _ _ _ _ _ _ _ => true
  | .dMux4Way _ _ _ => true
  | .dMux8Way _ _ _ _ => true
  | .halfAdder _ _ => true
  | .fullAdder _ _ _ => true
  | .add16 _ _ => true
  | .inc16 _ => true
  | .clockNew => true
  | .clockNext c => c < cfg.numClocks
  | .clockPhase c => c < cfg.numClocks
  | .dffNew => true
  | .dffInput d _ c => d < cfg.numDffs && c < cfg.numClocks
  | .dffOutput d c => d < cfg.numDffs && c < cfg.numClocks

/-- An encoded operation names a row of the table, with that row's number of instance operands and of port Bits (R39). -/
def Encoded.wellFormed (e : Encoded) : Bool :=
  match Machine.rowShape e.row with
  | none => false
  | some sh => e.refs.length == sh.refs && e.ports.length == sh.ports.sum

mutual
/-- An expression calls only components, each with as many arguments as it has input ports (R39, R44). -/
def Expr.wellFormed : Expr → Bool
  | .bit _ => true
  | .word _ => true
  | .tokens _ => true
  | .number _ => true
  | .name _ => true
  | .port e _ => e.wellFormed
  | .index e _ => e.wellFormed
  | .pack es => es.wellFormed
  | .call row args =>
    Machine.isComponentRow row && args.wellFormed &&
      match Machine.rowShape row with
      | none => false
      | some sh => args.length == sh.ports.length
  | .output _ _ => true
  | .phase _ => true

/-- Every argument is well formed. -/
def Args.wellFormed : Args → Bool
  | .nil => true
  | .cons e es => e.wellFormed && es.wellFormed

/-- How many arguments there are. -/
def Args.length : Args → Nat
  | .nil => 0
  | .cons _ es => es.length + 1
end

mutual
/-- A statement's operations and expressions are well formed. -/
def Stmt.wellFormed : Stmt → Bool
  | .op e => e.wellFormed
  | .clock _ => true
  | .dff _ => true
  | .next _ => true
  | .input _ e _ => e.wellFormed
  | .letE _ e => e.wellFormed
  | .loop _ body => body.wellFormed
  | .ifElse e yes no => e.wellFormed && yes.wellFormed && no.wellFormed

/-- Every statement of the program is well formed. -/
def Prog.wellFormed : Prog → Bool
  | .nil => true
  | .cons s p => s.wellFormed && p.wellFormed
end

end Sys2Proof
end

