-- ==== Sys2Proof/Decode.lean ====
section
/-! DEFINITION. Decoding an encoded operation, total and rejecting by name, and the encoder (R35 to R41, R44). -/

namespace Sys2Proof

open Machine

/-- Bit `k` of a port vector. -/
def portBit (ports : List Bit) (k : Nat) : Bit := ports.getD k Bit.O

/-- The Word port that starts at Bit `k` of a port vector (R39: "each Word port as 16 characters from index 0 to index 15"). -/
def portWord (ports : List Bit) (k : Nat) : Word := wordOfBits ((ports.drop k).take 16)

/-- Operand `k` of an event: a DFF or Clock instance number. -/
def refAt (refs : List Nat) (k : Nat) : Nat := refs.getD k 0

/-- The ALU rows 0 to 31 by packed control code `zx·32 + nx·16 + zy·8 + ny·4 + f·2 + no` (R36, R42). -/
def aluInstrLow (x y : Word) (code : Nat) : Option Instr :=
  match code with
  | 0 => some (.aluXAndY x y)
  | 1 => some (.alu000001 x y)
  | 2 => some (.aluXPlusY x y)
  | 3 => some (.alu000011 x y)
  | 4 => some (.alu000100 x y)
  | 5 => some (.alu000101 x y)
  | 6 => some (.alu000110 x y)
  | 7 => some (.aluYMinusX x y)
  | 8 => some (.alu001000 x y)
  | 9 => some (.alu001001 x y)
  | 10 => some (.alu001010 x y)
  | 11 => some (.alu001011 x y)
  | 12 => some (.aluX x y)
  | 13 => some (.aluNotX x y)
  | 14 => some (.aluXMinus1 x y)
  | 15 => some (.aluNegX x y)
  | 16 => some (.alu010000 x y)
  | 17 => some (.alu010001 x y)
  | 18 => some (.alu010010 x y)
  | 19 => some (.aluXMinusY x y)
  | 20 => some (.alu010100 x y)
  | 21 => some (.aluXOrY x y)
  | 22 => some (.alu010110 x y)
  | 23 => some (.alu010111 x y)
  | 24 => some (.alu011000 x y)
  | 25 => some (.alu011001 x y)
  | 26 => some (.alu011010 x y)
  | 27 => some (.alu011011 x y)
  | 28 => some (.alu011100 x y)
  | 29 => some (.alu011101 x y)
  | 30 => some (.alu011110 x y)
  | 31 => some (.aluXPlus1 x y)
  | _ => none

/-- The ALU rows 32 to 63 by packed control code `zx·32 + nx·16 + zy·8 + ny·4 + f·2 + no` (R36, R42). -/
def aluInstrHigh (x y : Word) (code : Nat) : Option Instr :=
  match code with
  | 32 => some (.alu100000 x y)
  | 33 => some (.alu100001 x y)
  | 34 => some (.alu100010 x y)
  | 35 => some (.alu100011 x y)
  | 36 => some (.alu100100 x y)
  | 37 => some (.alu100101 x y)
  | 38 => some (.alu100110 x y)
  | 39 => some (.alu100111 x y)
  | 40 => some (.alu101000 x y)
  | 41 => some (.alu101001 x y)
  | 42 => some (.aluZero x y)
  | 43 => some (.alu101011 x y)
  | 44 => some (.alu101100 x y)
  | 45 => some (.alu101101 x y)
  | 46 => some (.alu101110 x y)
  | 47 => some (.alu101111 x y)
  | 48 => some (.aluY x y)
  | 49 => some (.aluNotY x y)
  | 50 => some (.aluYMinus1 x y)
  | 51 => some (.aluNegY x y)
  | 52 => some (.alu110100 x y)
  | 53 => some (.alu110101 x y)
  | 54 => some (.alu110110 x y)
  | 55 => some (.aluYPlus1 x y)
  | 56 => some (.alu111000 x y)
  | 57 => some (.alu111001 x y)
  | 58 => some (.aluNegOne x y)
  | 59 => some (.alu111011 x y)
  | 60 => some (.alu111100 x y)
  | 61 => some (.alu111101 x y)
  | 62 => some (.alu111110 x y)
  | 63 => some (.aluOne x y)
  | _ => none

/-- The ALU instruction of a packed control code; every one of the 64 is defined (R40). -/
def aluInstr (x y : Word) (code : Nat) : Option Instr :=
  if code < 32 then aluInstrLow x y code else aluInstrHigh x y code

/-- The component of a row, its ports read from the port vector (R39). -/
def componentInstr (ports : List Bit) (row : Nat) : Option Instr :=
  match row with
  | 64 => some (.nand (portBit ports 0) (portBit ports 1))
  | 65 => some (.not (portBit ports 0))
  | 66 => some (.and (portBit ports 0) (portBit ports 1))
  | 67 => some (.or (portBit ports 0) (portBit ports 1))
  | 68 => some (.xor (portBit ports 0) (portBit ports 1))
  | 69 => some (.mux (portBit ports 0) (portBit ports 1) (portBit ports 2))
  | 70 => some (.dMux (portBit ports 0) (portBit ports 1))
  | 71 => some (.not16 (portWord ports 0))
  | 72 => some (.and16 (portWord ports 0) (portWord ports 16))
  | 73 => some (.or16 (portWord ports 0) (portWord ports 16))
  | 74 => some (.mux16 (portWord ports 0) (portWord ports 16) (portBit ports 32))
  | 75 => some (.or8Way (portBit ports 0) (portBit ports 1) (portBit ports 2) (portBit ports 3) (portBit ports 4)
      (portBit ports 5) (portBit ports 6) (portBit ports 7))
  | 76 => some (.mux4Way16 (portWord ports 0) (portWord ports 16) (portWord ports 32) (portWord ports 48)
      (portBit ports 64) (portBit ports 65))
  | 77 => some (.mux8Way16 (portWord ports 0) (portWord ports 16) (portWord ports 32) (portWord ports 48)
      (portWord ports 64) (portWord ports 80) (portWord ports 96) (portWord ports 112) (portBit ports 128)
      (portBit ports 129) (portBit ports 130))
  | 78 => some (.dMux4Way (portBit ports 0) (portBit ports 1) (portBit ports 2))
  | 79 => some (.dMux8Way (portBit ports 0) (portBit ports 1) (portBit ports 2) (portBit ports 3))
  | 80 => some (.halfAdder (portBit ports 0) (portBit ports 1))
  | 81 => some (.fullAdder (portBit ports 0) (portBit ports 1) (portBit ports 2))
  | 82 => some (.add16 (portWord ports 0) (portWord ports 16))
  | 83 => some (.inc16 (portWord ports 0))
  | _ => none

/-- The Clock or DFF event of a row (R39). -/
def eventInstr (refs : List Nat) (ports : List Bit) (row : Nat) : Option Instr :=
  match row with
  | 84 => some (.clockNew)
  | 85 => some (.clockNext (refAt refs 0))
  | 86 => some (.clockPhase (refAt refs 0))
  | 87 => some (.dffNew)
  | 88 => some (.dffInput (refAt refs 0) (portBit ports 0) (refAt refs 1))
  | 89 => some (.dffOutput (refAt refs 0) (refAt refs 1))
  | _ => none

/-- The instruction of a row, given operands of the row's shape. -/
def buildInstr (row : Nat) (refs : List Nat) (ports : List Bit) : Option Instr :=
  if row < aluRows then aluInstr (portWord ports 0) (portWord ports 16) row
  else if isComponentRow row then componentInstr ports row
  else eventInstr refs ports row

/-- Decoding: a row of the table with that row's operands is one instruction; anything else is refused by name (R40, R41). -/
def decode (e : Encoded) : Except DecodeError Instr :=
  match rowShape e.row with
  | none => .error (.unknownBlock e.row)
  | some sh =>
    if e.refs.length ≠ sh.refs then .error (.refCount e.row sh.refs e.refs.length)
    else if e.ports.length ≠ sh.ports.sum then .error (.portCount e.row sh.ports.sum e.ports.length)
    else
      match buildInstr e.row e.refs e.ports with
      | some i => .ok i
      | none => .error (.unknownBlock e.row)

/-- The encoded operation of an instruction: its row, its instance operands and its port vector (R36, R39). -/
def encode (i : Instr) : Encoded :=
  match i with
  | .aluXAndY x y => ⟨0, [], wordBits x ++ wordBits y⟩
  | .alu000001 x y => ⟨1, [], wordBits x ++ wordBits y⟩
  | .aluXPlusY x y => ⟨2, [], wordBits x ++ wordBits y⟩
  | .alu000011 x y => ⟨3, [], wordBits x ++ wordBits y⟩
  | .alu000100 x y => ⟨4, [], wordBits x ++ wordBits y⟩
  | .alu000101 x y => ⟨5, [], wordBits x ++ wordBits y⟩
  | .alu000110 x y => ⟨6, [], wordBits x ++ wordBits y⟩
  | .aluYMinusX x y => ⟨7, [], wordBits x ++ wordBits y⟩
  | .alu001000 x y => ⟨8, [], wordBits x ++ wordBits y⟩
  | .alu001001 x y => ⟨9, [], wordBits x ++ wordBits y⟩
  | .alu001010 x y => ⟨10, [], wordBits x ++ wordBits y⟩
  | .alu001011 x y => ⟨11, [], wordBits x ++ wordBits y⟩
  | .aluX x y => ⟨12, [], wordBits x ++ wordBits y⟩
  | .aluNotX x y => ⟨13, [], wordBits x ++ wordBits y⟩
  | .aluXMinus1 x y => ⟨14, [], wordBits x ++ wordBits y⟩
  | .aluNegX x y => ⟨15, [], wordBits x ++ wordBits y⟩
  | .alu010000 x y => ⟨16, [], wordBits x ++ wordBits y⟩
  | .alu010001 x y => ⟨17, [], wordBits x ++ wordBits y⟩
  | .alu010010 x y => ⟨18, [], wordBits x ++ wordBits y⟩
  | .aluXMinusY x y => ⟨19, [], wordBits x ++ wordBits y⟩
  | .alu010100 x y => ⟨20, [], wordBits x ++ wordBits y⟩
  | .aluXOrY x y => ⟨21, [], wordBits x ++ wordBits y⟩
  | .alu010110 x y => ⟨22, [], wordBits x ++ wordBits y⟩
  | .alu010111 x y => ⟨23, [], wordBits x ++ wordBits y⟩
  | .alu011000 x y => ⟨24, [], wordBits x ++ wordBits y⟩
  | .alu011001 x y => ⟨25, [], wordBits x ++ wordBits y⟩
  | .alu011010 x y => ⟨26, [], wordBits x ++ wordBits y⟩
  | .alu011011 x y => ⟨27, [], wordBits x ++ wordBits y⟩
  | .alu011100 x y => ⟨28, [], wordBits x ++ wordBits y⟩
  | .alu011101 x y => ⟨29, [], wordBits x ++ wordBits y⟩
  | .alu011110 x y => ⟨30, [], wordBits x ++ wordBits y⟩
  | .aluXPlus1 x y => ⟨31, [], wordBits x ++ wordBits y⟩
  | .alu100000 x y => ⟨32, [], wordBits x ++ wordBits y⟩
  | .alu100001 x y => ⟨33, [], wordBits x ++ wordBits y⟩
  | .alu100010 x y => ⟨34, [], wordBits x ++ wordBits y⟩
  | .alu100011 x y => ⟨35, [], wordBits x ++ wordBits y⟩
  | .alu100100 x y => ⟨36, [], wordBits x ++ wordBits y⟩
  | .alu100101 x y => ⟨37, [], wordBits x ++ wordBits y⟩
  | .alu100110 x y => ⟨38, [], wordBits x ++ wordBits y⟩
  | .alu100111 x y => ⟨39, [], wordBits x ++ wordBits y⟩
  | .alu101000 x y => ⟨40, [], wordBits x ++ wordBits y⟩
  | .alu101001 x y => ⟨41, [], wordBits x ++ wordBits y⟩
  | .aluZero x y => ⟨42, [], wordBits x ++ wordBits y⟩
  | .alu101011 x y => ⟨43, [], wordBits x ++ wordBits y⟩
  | .alu101100 x y => ⟨44, [], wordBits x ++ wordBits y⟩
  | .alu101101 x y => ⟨45, [], wordBits x ++ wordBits y⟩
  | .alu101110 x y => ⟨46, [], wordBits x ++ wordBits y⟩
  | .alu101111 x y => ⟨47, [], wordBits x ++ wordBits y⟩
  | .aluY x y => ⟨48, [], wordBits x ++ wordBits y⟩
  | .aluNotY x y => ⟨49, [], wordBits x ++ wordBits y⟩
  | .aluYMinus1 x y => ⟨50, [], wordBits x ++ wordBits y⟩
  | .aluNegY x y => ⟨51, [], wordBits x ++ wordBits y⟩
  | .alu110100 x y => ⟨52, [], wordBits x ++ wordBits y⟩
  | .alu110101 x y => ⟨53, [], wordBits x ++ wordBits y⟩
  | .alu110110 x y => ⟨54, [], wordBits x ++ wordBits y⟩
  | .aluYPlus1 x y => ⟨55, [], wordBits x ++ wordBits y⟩
  | .alu111000 x y => ⟨56, [], wordBits x ++ wordBits y⟩
  | .alu111001 x y => ⟨57, [], wordBits x ++ wordBits y⟩
  | .aluNegOne x y => ⟨58, [], wordBits x ++ wordBits y⟩
  | .alu111011 x y => ⟨59, [], wordBits x ++ wordBits y⟩
  | .alu111100 x y => ⟨60, [], wordBits x ++ wordBits y⟩
  | .alu111101 x y => ⟨61, [], wordBits x ++ wordBits y⟩
  | .alu111110 x y => ⟨62, [], wordBits x ++ wordBits y⟩
  | .aluOne x y => ⟨63, [], wordBits x ++ wordBits y⟩
  | .nand a b => ⟨64, [], [a, b]⟩
  | .not a => ⟨65, [], [a]⟩
  | .and a b => ⟨66, [], [a, b]⟩
  | .or a b => ⟨67, [], [a, b]⟩
  | .xor a b => ⟨68, [], [a, b]⟩
  | .mux a b sel => ⟨69, [], [a, b, sel]⟩
  | .dMux inp sel => ⟨70, [], [inp, sel]⟩
  | .not16 a => ⟨71, [], wordBits a⟩
  | .and16 a b => ⟨72, [], wordBits a ++ wordBits b⟩
  | .or16 a b => ⟨73, [], wordBits a ++ wordBits b⟩
  | .mux16 a b sel => ⟨74, [], wordBits a ++ wordBits b ++ [sel]⟩
  | .or8Way in0 in1 in2 in3 in4 in5 in6 in7 => ⟨75, [], [in0, in1, in2, in3, in4, in5, in6, in7]⟩
  | .mux4Way16 in0 in1 in2 in3 sel0 sel1 => ⟨76, [], wordBits in0 ++ wordBits in1 ++ wordBits in2 ++ wordBits in3 ++ [sel0, sel1]⟩
  | .mux8Way16 in0 in1 in2 in3 in4 in5 in6 in7 sel0 sel1 sel2 => ⟨77, [], wordBits in0 ++ wordBits in1 ++ wordBits in2 ++ wordBits in3 ++ wordBits in4 ++ wordBits in5 ++ wordBits in6 ++ wordBits in7 ++ [sel0, sel1, sel2]⟩
  | .dMux4Way inp sel0 sel1 => ⟨78, [], [inp, sel0, sel1]⟩
  | .dMux8Way inp sel0 sel1 sel2 => ⟨79, [], [inp, sel0, sel1, sel2]⟩
  | .halfAdder a b => ⟨80, [], [a, b]⟩
  | .fullAdder a b c => ⟨81, [], [a, b, c]⟩
  | .add16 a b => ⟨82, [], wordBits a ++ wordBits b⟩
  | .inc16 a => ⟨83, [], wordBits a⟩
  | .clockNew => ⟨84, [], []⟩
  | .clockNext c => ⟨85, [c], []⟩
  | .clockPhase c => ⟨86, [c], []⟩
  | .dffNew => ⟨87, [], []⟩
  | .dffInput d value c => ⟨88, [d, c], [value]⟩
  | .dffOutput d c => ⟨89, [d, c], []⟩

/-- The operation a table word stands for: Bits 7 to 0 of the word are the row (for an ALU row the packed control code, its two
upper Bits zero: R36), and Bit `8 + k` is Bit `k` of the port vector; every Bit from `nbits` on is 0, and every instance operand is
instance 0. Log entry 9: the 26 rows that the table gives no fixed bits cannot be told apart by their match value. -/
def encodedOfTableWord (nbits w : Nat) : Encoded :=
  let v := w % 2 ^ nbits
  let row := v % 256
  match rowShape row with
  | none => ⟨row, [], []⟩
  | some sh => ⟨row, List.replicate sh.refs 0, (List.range sh.ports.sum).map (fun k => v.testBit (8 + k))⟩

/-- What `decode` gives for a table word, `none` where it refuses. -/
def decodeTableWord (nbits w : Nat) : Option Instr :=
  match decode (encodedOfTableWord nbits w) with
  | .ok i => some i
  | .error _ => none

end Sys2Proof
end

