-- ==== Sys2Proof/Machine/State.lean ====
section
/-! DEFINITION. The state of the machine, all of it plain data: the spec's state (R13), the two parameters (R5), the driver's
program and names (R34, R44), and the outputs of the last operation (log entries 1 to 4); the faults and refusals; the state after reset. -/

namespace Sys2Proof.Machine

/-- The two phases of a Clock (R16). -/
inductive Phase where
  | tick
  | tock
  deriving DecidableEq, Repr

/-- A DFF: two Bit fields (R17). -/
structure Dff where
  /-- Visible during `Tick` (R17, R101). -/
  committed : Bit
  /-- Visible during `Tock` (R17, R101). -/
  pending : Bit
  deriving DecidableEq, Repr

/-- The four fault kinds and the value each records (R103). -/
inductive FaultReason where
  /-- A Word built from a string of the wrong number of tokens; records the count. Raised by `wordOfTokens`. Safe: the spec names it. -/
  | malformedWordLength (count : Nat)
  /-- A Word built from a string with a token that is not '0' or '1'; records the first bad position. Raised by `wordOfTokens`. Safe. -/
  | malformedWordToken (position : Nat)
  /-- A Bit built from a number other than 0 and 1; records the number. Raised by `bitOfNumber`. Safe. -/
  | bitValueOutOfRange (n : Int)
  /-- A Word read at an index outside 0 to 15; records the index. Raised by `readIndex`. Safe. -/
  | indexOutOfRange (i : Nat)
  deriving DecidableEq, Repr

/-- The output ports of one operation, and what a driver's name stands for (R39, R44). -/
inductive Value where
  /-- An operation without outputs (`Clock.next`, `DFF.input`). -/
  | nothing
  | bit (b : Bit)
  | word (w : Word)
  /-- Bits side by side that are no Word: a selector or the inputs of `Or8Way`. -/
  | bits (bs : List Bit)
  /-- `out0`, `out1`, … of a demultiplexer. -/
  | demux (outs : List Bit)
  | carrySum (carry sum : Bit)
  | alu (out : Word) (zr ng : Bit)
  | clock (c : Nat)
  | dff (d : Nat)
  | phase (p : Phase)
  deriving DecidableEq, Repr

/-- Why the machine stops with a fault. -/
inductive Fault where
  /-- The machine is in the fault state with these causes and takes no further step (R105). Raised by `step` alone, in a state whose
  fault record is set. Safe: the spec says the state takes no step. -/
  | halted (causes : List FaultReason)
  deriving DecidableEq, Repr

/-- Why an operation has no meaning. -/
inductive Refusal where
  /-- No meaning for the instruction yet; no arm raises it. Safe. -/
  | notModelled (mnemonic : String)
  /-- The encoded operation is no instruction (R37, R39, R61, D20, D24). Raised by `issue`. Safe: the spec refuses it. -/
  | encoding (e : DecodeError)
  /-- `Clock.new` with `NUM_CLOCKS` Clocks already created (R95, D18). Raised by `execClockNew`. Safe: the spec refuses it. -/
  | clocksExhausted
  /-- `DFF.new` with `NUM_DFFS` DFFs already created (R98, D18). Raised by `execDffNew`. Safe: the spec refuses it. -/
  | dffsExhausted
  /-- A Clock operand that names no Clock created so far (log entry 6). Raised by `withClock`. Safe. -/
  | noSuchClock (c : Nat)
  /-- A DFF operand that names no DFF created so far (log entry 6). Raised by `withDff`. Safe. -/
  | noSuchDff (d : Nat)
  /-- A driver name that nothing has bound (log entry 6). Raised by `lookupName`. Safe. -/
  | unboundName (n : Name)
  /-- A driver expression or name whose value is not of the kind its place needs (log entry 6). Raised by the driver's
  operand reading (`valueBits`, `valueBit`, `valueWord`, `clockNamed`, `dffNamed`, `selectPort`). Safe. -/
  | wrongKind
  /-- A component called with arguments that are not its input ports one by one (R37, R39, D24; log entry 6). Raised by
  `callComponent`. Safe: the spec refuses it. -/
  | wrongArguments (row : Nat)
  /-- An event row written as a component of an expression; R44's grammar has no such expression. Raised by `callComponent`. Safe. -/
  | notComponent (row : Nat)
  deriving DecidableEq, Repr

/-- The machine: the spec's state (R13), the parameters (R5), and the driver (R30, R34, R44). -/
structure State where
  /-- The Clock instances' phases (R13, R16), in order of creation: an instance's number is its place here (DESIGN CHOICE, log entry 21). -/
  clocks : List Phase
  /-- The DFF instances (R13, R17), in order of creation, numbered in the same way (log entry 21). -/
  dffs : List Dff
  /-- The record of a fatal fault: the causes that apply (R13, R105, R107). -/
  fault : Option (List FaultReason)
  /-- `NUM_CLOCKS` and `NUM_DFFS` (R5, D18; log entry 1). -/
  config : Config
  /-- What is left of the driver's program (R13, R34; log entry 2). -/
  program : Prog
  /-- What the driver's names stand for (R44; log entry 4). The model's own field. -/
  env : List (Name × Value)
  /-- The outputs of the operation issued last (R20; log entry 3). The model's own field. -/
  out : Value
  deriving DecidableEq, Repr

/-- An outcome of this machine. -/
abbrev Answer := Host.Outcome State Fault Refusal

/-- The empty machine for given bounds: no instances, no fault, nothing in flight (R113, R114). -/
def State.resetWith (cfg : Config) : State :=
  { clocks := [], dffs := [], fault := none, config := cfg, program := .nil, env := [], out := .nothing }

/-- The machine a run begins in (R114). The bounds are a DESIGN CHOICE (log entry 1). -/
def State.reset : State := State.resetWith Config.default

end Sys2Proof.Machine
end

