-- ==== Sys2Proof/Machine/Ops.lean ====
section
/-! DEFINITION. The named operations over the state, which every meaning is written with: completing an operation, creating, reading
and writing Clocks and DFFs (R95 to R101), entering the fault state (R105), and the driver's names (R44). -/

namespace Sys2Proof.Machine

open Sys2Proof.Bit

/-- The phase after `Clock.next`: it "toggles unconditionally" (R96). -/
def phaseNext (p : Phase) : Phase :=
  match p with
  | .tick => .tock
  | .tock => .tick

/-- A Phase held as a Bit: `Tick` is 0 and `Tock` is 1 (R16, D13). -/
def phaseBit (p : Phase) : Bit :=
  match p with
  | .tick => O
  | .tock => I

/-- A new Clock is in `Tick` (R95). -/
def newPhase : Phase := .tick

/-- A new DFF is `(O, O)` (R98). -/
def newDff : Dff := { committed := O, pending := O }

/-- The DFF after `DFF.input` with the passed Clock in the given phase: in `Tick`, commit the pending value and latch the new one
(R99); in `Tock`, nothing (R100). -/
def dffAfterInput (p : Phase) (value : Bit) (f : Dff) : Dff :=
  match p with
  | .tick => { committed := f.pending, pending := value }
  | .tock => f

/-- What `DFF.output` returns: `committed` in `Tick`, `pending` in `Tock` (R101). -/
def dffVisible (p : Phase) (f : Dff) : Bit :=
  match p with
  | .tick => f.committed
  | .tock => f.pending

/-- Record the outputs of the operation just done (log entry 3). -/
def State.setOut (s : State) (v : Value) : State := { s with out := v }

/-- The operation is done, with these outputs. -/
def State.complete (s : State) (v : Value) : Answer := .next (s.setOut v)

/-- A fresh Clock, distinct from every existing one (R95): it takes the next number (DESIGN CHOICE, log entry 21). -/
def State.addClock (s : State) : State := { s with clocks := s.clocks ++ [newPhase] }

/-- Write the phase of one Clock (R96). -/
def State.setClock (s : State) (c : Nat) (p : Phase) : State := { s with clocks := s.clocks.set c p }

/-- A fresh DFF (R98): it takes the next number (DESIGN CHOICE, log entry 21). -/
def State.addDff (s : State) : State := { s with dffs := s.dffs ++ [newDff] }

/-- Write both fields of one DFF in one step (R28, R99). -/
def State.setDff (s : State) (d : Nat) (f : Dff) : State := { s with dffs := s.dffs.set d f }

/-- Enter the fault state: the record is set and no Clock or DFF field changes (R105; log entry 10). -/
def State.enterFault (s : State) (causes : List FaultReason) : State := { s with fault := some causes }

/-- What is left of the driver's program. -/
def State.setProgram (s : State) (p : Prog) : State := { s with program := p }

/-- Bind a driver name; an earlier binding of the same name is replaced (R44). -/
def State.bind (s : State) (n : Name) (v : Value) : State :=
  { s with env := (n, v) :: s.env.filter (fun b => b.1 ≠ n) }

/-- The value a driver name stands for. -/
def State.value? (s : State) (n : Name) : Option Value := (s.env.find? (fun b => b.1 = n)).map Prod.snd

/-- Read the phase of the Clock operand `c` and go on; refused where no such Clock was created (log entry 6). -/
def withClock (c : Nat) (s : State) (k : Phase → Answer) : Answer :=
  match s.clocks[c]? with
  | none => .refused (.noSuchClock c)
  | some p => k p

/-- Read the DFF operand `d` and go on; refused where no such DFF was created (log entry 6). -/
def withDff (d : Nat) (s : State) (k : Dff → Answer) : Answer :=
  match s.dffs[d]? with
  | none => .refused (.noSuchDff d)
  | some f => k f

end Sys2Proof.Machine
end

