-- ==== Sys2Proof/Machine/PrimitiveGate.lean ====
section
/-! DEFINITION. The primitive gate (R45). Its truth table is the one definition of the block that is not a composition (R4). -/

namespace Sys2Proof.Machine

open Sys2Proof.Bit

/-- The truth table of R45, row by row (`false` is `O` and `true` is `I`, R6). -/
def nandGate (a b : Bit) : Bit :=
  match a, b with
  | false, false => I
  | false, true => I
  | true, false => I
  | true, true => O

/-- `Nand` (R45). -/
def execNand (a b : Bit) (s : State) : Answer := s.complete (.bit (nandGate a b))

end Sys2Proof.Machine
end

