-- ==== Sys2Proof/Machine/CombinationalLibrary.lean ====
section
/-! DEFINITION. The combinational library, each component by the spec's own composition (R4, R46 to R60), and the meanings of its rows. -/

namespace Sys2Proof.Machine

open Sys2Proof.Bit

/-- R46. -/
def notGate (a : Bit) : Bit := nandGate a a

/-- R47. -/
def andGate (a b : Bit) : Bit := notGate (nandGate a b)

/-- R48. -/
def orGate (a b : Bit) : Bit := nandGate (notGate a) (notGate b)

/-- R49. -/
def xorGate (a b : Bit) : Bit := orGate (andGate a (notGate b)) (andGate b (notGate a))

/-- R50. -/
def muxGate (a b sel : Bit) : Bit := orGate (andGate a (notGate sel)) (andGate b sel)

/-- R51: `(out0, out1)`. -/
def dMuxGate (inp sel : Bit) : Bit × Bit := (andGate inp (notGate sel), andGate inp sel)

/-- R52. -/
def not16 (a : Word) : Word := lanes (fun i => notGate (bit a i))

/-- R53. -/
def and16 (a b : Word) : Word := lanes (fun i => andGate (bit a i) (bit b i))

/-- R54. -/
def or16 (a b : Word) : Word := lanes (fun i => orGate (bit a i) (bit b i))

/-- R55: one `sel` for every lane. -/
def mux16 (a b : Word) (sel : Bit) : Word := lanes (fun i => muxGate (bit a i) (bit b i) sel)

/-- R56: the left fold. -/
def or8Way (in0 in1 in2 in3 in4 in5 in6 in7 : Bit) : Bit :=
  [in1, in2, in3, in4, in5, in6, in7].foldl orGate in0

/-- R57: the tree, `sel0` the outer choice. -/
def mux4Way16 (in0 in1 in2 in3 : Word) (sel0 sel1 : Bit) : Word :=
  let lo := mux16 in0 in1 sel1
  let hi := mux16 in2 in3 sel1
  mux16 lo hi sel0

/-- R58: the tree, `sel0` the outermost choice. -/
def mux8Way16 (in0 in1 in2 in3 in4 in5 in6 in7 : Word) (sel0 sel1 sel2 : Bit) : Word :=
  let lo := mux4Way16 in0 in1 in2 in3 sel1 sel2
  let hi := mux4Way16 in4 in5 in6 in7 sel1 sel2
  mux16 lo hi sel0

/-- R59: `out0` to `out3`. -/
def dMux4Way (inp sel0 sel1 : Bit) : List Bit :=
  let h := dMuxGate inp sel0
  let lo := dMuxGate h.1 sel1
  let hi := dMuxGate h.2 sel1
  [lo.1, lo.2, hi.1, hi.2]

/-- R60: `out0` to `out7`. -/
def dMux8Way (inp sel0 sel1 sel2 : Bit) : List Bit :=
  let h := dMuxGate inp sel0
  dMux4Way h.1 sel1 sel2 ++ dMux4Way h.2 sel1 sel2

/-- `Not` (R46). -/
def execNot (a : Bit) (s : State) : Answer := s.complete (.bit (notGate a))

/-- `And` (R47). -/
def execAnd (a b : Bit) (s : State) : Answer := s.complete (.bit (andGate a b))

/-- `Or` (R48). -/
def execOr (a b : Bit) (s : State) : Answer := s.complete (.bit (orGate a b))

/-- `Xor` (R49). -/
def execXor (a b : Bit) (s : State) : Answer := s.complete (.bit (xorGate a b))

/-- `Mux` (R50). -/
def execMux (a b sel : Bit) (s : State) : Answer := s.complete (.bit (muxGate a b sel))

/-- `DMux` (R51). -/
def execDMux (inp sel : Bit) (s : State) : Answer :=
  s.complete (.demux [(dMuxGate inp sel).1, (dMuxGate inp sel).2])

/-- `Not16` (R52). -/
def execNot16 (a : Word) (s : State) : Answer := s.complete (.word (not16 a))

/-- `And16` (R53). -/
def execAnd16 (a b : Word) (s : State) : Answer := s.complete (.word (and16 a b))

/-- `Or16` (R54). -/
def execOr16 (a b : Word) (s : State) : Answer := s.complete (.word (or16 a b))

/-- `Mux16` (R55). -/
def execMux16 (a b : Word) (sel : Bit) (s : State) : Answer := s.complete (.word (mux16 a b sel))

/-- `Or8Way` (R56). -/
def execOr8Way (in0 in1 in2 in3 in4 in5 in6 in7 : Bit) (s : State) : Answer :=
  s.complete (.bit (or8Way in0 in1 in2 in3 in4 in5 in6 in7))

/-- `Mux4Way16` (R57). -/
def execMux4Way16 (in0 in1 in2 in3 : Word) (sel0 sel1 : Bit) (s : State) : Answer :=
  s.complete (.word (mux4Way16 in0 in1 in2 in3 sel0 sel1))

/-- `Mux8Way16` (R58). -/
def execMux8Way16 (in0 in1 in2 in3 in4 in5 in6 in7 : Word) (sel0 sel1 sel2 : Bit) (s : State) : Answer :=
  s.complete (.word (mux8Way16 in0 in1 in2 in3 in4 in5 in6 in7 sel0 sel1 sel2))

/-- `DMux4Way` (R59). -/
def execDMux4Way (inp sel0 sel1 : Bit) (s : State) : Answer := s.complete (.demux (dMux4Way inp sel0 sel1))

/-- `DMux8Way` (R60). -/
def execDMux8Way (inp sel0 sel1 sel2 : Bit) (s : State) : Answer := s.complete (.demux (dMux8Way inp sel0 sel1 sel2))

end Sys2Proof.Machine
end

