-- ==== Sys2Proof/Machine/WordArithmetic.lean ====
section
/-! DEFINITION. Word arithmetic: the adders by the spec's own composition (R62 to R67), and the meanings of their rows. -/

namespace Sys2Proof.Machine

open Sys2Proof.Bit

/-- R62: `(carry, sum)`. -/
def halfAdder (a b : Bit) : Bit × Bit := (andGate a b, xorGate a b)

/-- R63: `(carry, sum)`, two half-adders (D6). -/
def fullAdder (a b c : Bit) : Bit × Bit :=
  let first := halfAdder a b
  let second := halfAdder first.2 c
  (orGate first.1 second.1, second.2)

/-- The stages of R64 for the indices `k - 1` down to 0, given the carry into index `k - 1` and the sums already made for the
indices from `k` on; the carry out of index 0 is discarded. -/
def addStages (a b : Word) (k : Nat) (carry : Bit) (sums : List Bit) : List Bit :=
  match k with
  | 0 => sums
  | i + 1 =>
    match fullAdder (bit a i) (bit b i) carry with
    | (carry', sum) => addStages a b i carry' (sum :: sums)

/-- R64: ripple carry from index 15 to index 0, the carry into index 15 being `O` (D6). -/
def add16 (a b : Word) : Word := wordOfBits (addStages a b 16 O [])

/-- R65. -/
def inc16 (a : Word) : Word := add16 a one16

/-- `HalfAdder` (R62). -/
def execHalfAdder (a b : Bit) (s : State) : Answer :=
  s.complete (.carrySum (halfAdder a b).1 (halfAdder a b).2)

/-- `FullAdder` (R63). -/
def execFullAdder (a b c : Bit) (s : State) : Answer :=
  s.complete (.carrySum (fullAdder a b c).1 (fullAdder a b c).2)

/-- `Add16` (R64). -/
def execAdd16 (a b : Word) (s : State) : Answer := s.complete (.word (add16 a b))

/-- `Inc16` (R65). -/
def execInc16 (a : Word) (s : State) : Answer := s.complete (.word (inc16 a))

end Sys2Proof.Machine
end

