-- ==== Sys2Proof/Machine/Operands.lean ====
section
/-! DEFINITION. Operand forms: the ALU's operand assembly (R35, R69, R70) and the boundary operations that make a Bit or Word of
external data, with the four faults they raise (R14, R15, R43, R103, R107). -/

namespace Sys2Proof.Machine

open Sys2Proof.Bit

/-- Steps 1 and 2 of the ALU, the same for `x` and `y`: zero, then negate (R69, R70, D7). -/
def aluOperand (v : Word) (zero negate : Bit) : Word :=
  let v1 := mux16 v zero16 zero
  mux16 v1 (not16 v1) negate

/-- The token is '0' or '1' (R43). -/
def tokenOk (t : Token) : Bool :=
  match t with
  | .zero => true
  | .one => true
  | .other => false

/-- The Bit a token stands for: '0' is `O` and '1' is `I` (R43, D1). -/
def tokenBit (t : Token) : Bit :=
  match t with
  | .zero => O
  | .one => I
  | .other => O

/-- "the token count is not exactly 16" (R103). -/
def lengthCauses (ts : List Token) : List FaultReason :=
  if ts.length = 16 then [] else [.malformedWordLength ts.length]

/-- "any token is not '0'/'1'": the first bad position is recorded (R103). -/
def tokenCauses (ts : List Token) : List FaultReason :=
  match ts.findIdx? (fun t => !tokenOk t) with
  | none => []
  | some k => [.malformedWordToken k]

/-- Building a Word from a string of tokens: token `k` is `w[k]` (R43, D19); every cause that applies is recorded (R107, D12). -/
def wordOfTokens (ts : List Token) : Except (List FaultReason) Word :=
  match lengthCauses ts ++ tokenCauses ts with
  | [] => .ok (wordOfBits (ts.map tokenBit))
  | causes => .error causes

/-- Building a Bit from an external number: it "fails unless the value is exactly 0 or 1" (R14, R103). -/
def bitOfNumber (n : Int) : Except (List FaultReason) Bit :=
  if n = 0 then .ok O else if n = 1 then .ok I else .error [.bitValueOutOfRange n]

/-- Reading `w[i]` at a number the caller computed: outside 0 to 15 it faults (R15, R26, R103). -/
def readIndex (w : Word) (i : Nat) : Except (List FaultReason) Bit :=
  if i < 16 then .ok (bit w i) else .error [.indexOutOfRange i]

end Sys2Proof.Machine
end

