-- ==== Sys2Proof/Machine/Flags.lean ====
section
/-! DEFINITION. The ALU's two flag outputs; no other flag exists (R20, R66, R73, R74, R94). -/

namespace Sys2Proof.Machine

/-- `Or8Way(out[k..k+8])` of a Word's slice (R8, R73). -/
def orSlice (w : Word) (k : Nat) : Bit :=
  or8Way (bit w k) (bit w (k + 1)) (bit w (k + 2)) (bit w (k + 3)) (bit w (k + 4)) (bit w (k + 5)) (bit w (k + 6)) (bit w (k + 7))

/-- `zr` (R73): `Not(Or(Or8Way(out[0..8]), Or8Way(out[8..16])))`. -/
def zeroFlag (out : Word) : Bit := notGate (orGate (orSlice out 0) (orSlice out 8))

/-- `ng` (R74): `out[0]`, the sign Bit. -/
def negFlag (out : Word) : Bit := bit out 0

end Sys2Proof.Machine
end

