-- ==== Sys2Proof/Machine/Alu.lean ====
section
/-! DEFINITION. The ALU: the six-step pipeline (R68 to R74), and the meaning of each of the 64 control codes, all of them one
shared evaluation with the code's six control Bits (R35, R75 to R93). -/

namespace Sys2Proof.Machine

open Sys2Proof.Bit

/-- Step 3, the function: `Add16` for `f = I`, `And16` for `f = O`, both evaluated (R71, D7). -/
def aluFunction (x2 y2 : Word) (f : Bit) : Word := mux16 (and16 x2 y2) (add16 x2 y2) f

/-- Steps 1 to 4: the output Word for one control code (R69 to R72). -/
def aluOut (zx nx zy ny f no : Bit) (x y : Word) : Word :=
  let pre := aluFunction (aluOperand x zx nx) (aluOperand y zy ny) f
  mux16 pre (not16 pre) no

/-- Steps 1 to 6: the three output ports for one control code (R68 to R74). -/
def aluPorts (zx nx zy ny f no : Bit) (x y : Word) : Value :=
  let out := aluOut zx nx zy ny f no x y
  .alu out (zeroFlag out) (negFlag out)

/-- One ALU evaluation issued by the driver: its ports are the operation's outputs, and no state changes (R19, R20, R68). -/
def execAlu (zx nx zy ny f no : Bit) (x y : Word) (s : State) : Answer :=
  s.complete (aluPorts zx nx zy ny f no x y)

/-- `ALU x&y`, code `000000`: `x & y` (R75, R92). -/
def execAluXAndY (x y : Word) (s : State) : Answer := execAlu O O O O O O x y s

/-- `ALU #000001`, code `000001`: `~x | ~y` (R75). -/
def execAlu000001 (x y : Word) (s : State) : Answer := execAlu O O O O O I x y s

/-- `ALU x+y`, code `000010`: `x+y` (R75, R89). -/
def execAluXPlusY (x y : Word) (s : State) : Answer := execAlu O O O O I O x y s

/-- `ALU #000011`, code `000011`: `-x-y-1` (R75). -/
def execAlu000011 (x y : Word) (s : State) : Answer := execAlu O O O O I I x y s

/-- `ALU #000100`, code `000100`: `x & ~y` (R75). -/
def execAlu000100 (x y : Word) (s : State) : Answer := execAlu O O O I O O x y s

/-- `ALU #000101`, code `000101`: `~x | y` (R75). -/
def execAlu000101 (x y : Word) (s : State) : Answer := execAlu O O O I O I x y s

/-- `ALU #000110`, code `000110`: `x-y-1` (R75). -/
def execAlu000110 (x y : Word) (s : State) : Answer := execAlu O O O I I O x y s

/-- `ALU y-x`, code `000111`: `-x+y` (R75, R91). -/
def execAluYMinusX (x y : Word) (s : State) : Answer := execAlu O O O I I I x y s

/-- `ALU #001000`, code `001000`: `0` (R75). -/
def execAlu001000 (x y : Word) (s : State) : Answer := execAlu O O I O O O x y s

/-- `ALU #001001`, code `001001`: `0xFFFF` (R75). -/
def execAlu001001 (x y : Word) (s : State) : Answer := execAlu O O I O O I x y s

/-- `ALU #001010`, code `001010`: `x` (R75). -/
def execAlu001010 (x y : Word) (s : State) : Answer := execAlu O O I O I O x y s

/-- `ALU #001011`, code `001011`: `-x-1` (R75). -/
def execAlu001011 (x y : Word) (s : State) : Answer := execAlu O O I O I I x y s

/-- `ALU x`, code `001100`: `x` (R75, R79). -/
def execAluX (x y : Word) (s : State) : Answer := execAlu O O I I O O x y s

/-- `ALU !x`, code `001101`: `~x` (R75, R81). -/
def execAluNotX (x y : Word) (s : State) : Answer := execAlu O O I I O I x y s

/-- `ALU x-1`, code `001110`: `x-1` (R75, R87). -/
def execAluXMinus1 (x y : Word) (s : State) : Answer := execAlu O O I I I O x y s

/-- `ALU -x`, code `001111`: `-x` (R75, R83). -/
def execAluNegX (x y : Word) (s : State) : Answer := execAlu O O I I I I x y s

/-- `ALU #010000`, code `010000`: `~x & y` (R75). -/
def execAlu010000 (x y : Word) (s : State) : Answer := execAlu O I O O O O x y s

/-- `ALU #010001`, code `010001`: `x | ~y` (R75). -/
def execAlu010001 (x y : Word) (s : State) : Answer := execAlu O I O O O I x y s

/-- `ALU #010010`, code `010010`: `-x+y-1` (R75). -/
def execAlu010010 (x y : Word) (s : State) : Answer := execAlu O I O O I O x y s

/-- `ALU x-y`, code `010011`: `x-y` (R75, R90). -/
def execAluXMinusY (x y : Word) (s : State) : Answer := execAlu O I O O I I x y s

/-- `ALU #010100`, code `010100`: `~x & ~y` (R75). -/
def execAlu010100 (x y : Word) (s : State) : Answer := execAlu O I O I O O x y s

/-- `ALU x|y`, code `010101`: `x | y` (R75, R93). -/
def execAluXOrY (x y : Word) (s : State) : Answer := execAlu O I O I O I x y s

/-- `ALU #010110`, code `010110`: `-x-y-2` (R75). -/
def execAlu010110 (x y : Word) (s : State) : Answer := execAlu O I O I I O x y s

/-- `ALU #010111`, code `010111`: `x+y+1` (R75). -/
def execAlu010111 (x y : Word) (s : State) : Answer := execAlu O I O I I I x y s

/-- `ALU #011000`, code `011000`: `0` (R75). -/
def execAlu011000 (x y : Word) (s : State) : Answer := execAlu O I I O O O x y s

/-- `ALU #011001`, code `011001`: `0xFFFF` (R75). -/
def execAlu011001 (x y : Word) (s : State) : Answer := execAlu O I I O O I x y s

/-- `ALU #011010`, code `011010`: `-x-1` (R75). -/
def execAlu011010 (x y : Word) (s : State) : Answer := execAlu O I I O I O x y s

/-- `ALU #011011`, code `011011`: `x` (R75). -/
def execAlu011011 (x y : Word) (s : State) : Answer := execAlu O I I O I I x y s

/-- `ALU #011100`, code `011100`: `~x` (R75). -/
def execAlu011100 (x y : Word) (s : State) : Answer := execAlu O I I I O O x y s

/-- `ALU #011101`, code `011101`: `x` (R75). -/
def execAlu011101 (x y : Word) (s : State) : Answer := execAlu O I I I O I x y s

/-- `ALU #011110`, code `011110`: `-x-2` (R75). -/
def execAlu011110 (x y : Word) (s : State) : Answer := execAlu O I I I I O x y s

/-- `ALU x+1`, code `011111`: `x+1` (R75, R85). -/
def execAluXPlus1 (x y : Word) (s : State) : Answer := execAlu O I I I I I x y s

/-- `ALU #100000`, code `100000`: `0` (R75). -/
def execAlu100000 (x y : Word) (s : State) : Answer := execAlu I O O O O O x y s

/-- `ALU #100001`, code `100001`: `0xFFFF` (R75). -/
def execAlu100001 (x y : Word) (s : State) : Answer := execAlu I O O O O I x y s

/-- `ALU #100010`, code `100010`: `y` (R75). -/
def execAlu100010 (x y : Word) (s : State) : Answer := execAlu I O O O I O x y s

/-- `ALU #100011`, code `100011`: `-y-1` (R75). -/
def execAlu100011 (x y : Word) (s : State) : Answer := execAlu I O O O I I x y s

/-- `ALU #100100`, code `100100`: `0` (R75). -/
def execAlu100100 (x y : Word) (s : State) : Answer := execAlu I O O I O O x y s

/-- `ALU #100101`, code `100101`: `0xFFFF` (R75). -/
def execAlu100101 (x y : Word) (s : State) : Answer := execAlu I O O I O I x y s

/-- `ALU #100110`, code `100110`: `-y-1` (R75). -/
def execAlu100110 (x y : Word) (s : State) : Answer := execAlu I O O I I O x y s

/-- `ALU #100111`, code `100111`: `y` (R75). -/
def execAlu100111 (x y : Word) (s : State) : Answer := execAlu I O O I I I x y s

/-- `ALU #101000`, code `101000`: `0` (R75). -/
def execAlu101000 (x y : Word) (s : State) : Answer := execAlu I O I O O O x y s

/-- `ALU #101001`, code `101001`: `0xFFFF` (R75). -/
def execAlu101001 (x y : Word) (s : State) : Answer := execAlu I O I O O I x y s

/-- `ALU 0`, code `101010`: `0` (R75, R76). -/
def execAluZero (x y : Word) (s : State) : Answer := execAlu I O I O I O x y s

/-- `ALU #101011`, code `101011`: `-1` (R75). -/
def execAlu101011 (x y : Word) (s : State) : Answer := execAlu I O I O I I x y s

/-- `ALU #101100`, code `101100`: `0` (R75). -/
def execAlu101100 (x y : Word) (s : State) : Answer := execAlu I O I I O O x y s

/-- `ALU #101101`, code `101101`: `0xFFFF` (R75). -/
def execAlu101101 (x y : Word) (s : State) : Answer := execAlu I O I I O I x y s

/-- `ALU #101110`, code `101110`: `-1` (R75). -/
def execAlu101110 (x y : Word) (s : State) : Answer := execAlu I O I I I O x y s

/-- `ALU #101111`, code `101111`: `0` (R75). -/
def execAlu101111 (x y : Word) (s : State) : Answer := execAlu I O I I I I x y s

/-- `ALU y`, code `110000`: `y` (R75, R80). -/
def execAluY (x y : Word) (s : State) : Answer := execAlu I I O O O O x y s

/-- `ALU !y`, code `110001`: `~y` (R75, R82). -/
def execAluNotY (x y : Word) (s : State) : Answer := execAlu I I O O O I x y s

/-- `ALU y-1`, code `110010`: `y-1` (R75, R88). -/
def execAluYMinus1 (x y : Word) (s : State) : Answer := execAlu I I O O I O x y s

/-- `ALU -y`, code `110011`: `-y` (R75, R84). -/
def execAluNegY (x y : Word) (s : State) : Answer := execAlu I I O O I I x y s

/-- `ALU #110100`, code `110100`: `~y` (R75). -/
def execAlu110100 (x y : Word) (s : State) : Answer := execAlu I I O I O O x y s

/-- `ALU #110101`, code `110101`: `y` (R75). -/
def execAlu110101 (x y : Word) (s : State) : Answer := execAlu I I O I O I x y s

/-- `ALU #110110`, code `110110`: `-y-2` (R75). -/
def execAlu110110 (x y : Word) (s : State) : Answer := execAlu I I O I I O x y s

/-- `ALU y+1`, code `110111`: `y+1` (R75, R86). -/
def execAluYPlus1 (x y : Word) (s : State) : Answer := execAlu I I O I I I x y s

/-- `ALU #111000`, code `111000`: `0` (R75). -/
def execAlu111000 (x y : Word) (s : State) : Answer := execAlu I I I O O O x y s

/-- `ALU #111001`, code `111001`: `0xFFFF` (R75). -/
def execAlu111001 (x y : Word) (s : State) : Answer := execAlu I I I O O I x y s

/-- `ALU -1`, code `111010`: `-1` (R75, R78). -/
def execAluNegOne (x y : Word) (s : State) : Answer := execAlu I I I O I O x y s

/-- `ALU #111011`, code `111011`: `0` (R75). -/
def execAlu111011 (x y : Word) (s : State) : Answer := execAlu I I I O I I x y s

/-- `ALU #111100`, code `111100`: `0xFFFF` (R75). -/
def execAlu111100 (x y : Word) (s : State) : Answer := execAlu I I I I O O x y s

/-- `ALU #111101`, code `111101`: `0` (R75). -/
def execAlu111101 (x y : Word) (s : State) : Answer := execAlu I I I I O I x y s

/-- `ALU #111110`, code `111110`: `-2` (R75). -/
def execAlu111110 (x y : Word) (s : State) : Answer := execAlu I I I I I O x y s

/-- `ALU 1`, code `111111`: `1` (R75, R77). -/
def execAluOne (x y : Word) (s : State) : Answer := execAlu I I I I I I x y s

end Sys2Proof.Machine
end

