-- ==== Sys2Proof/Machine/ClockedStorage.lean ====
section
/-! DEFINITION. The meanings of the Clock and DFF events (R95 to R101), the only operations that read or write hardware state. -/

namespace Sys2Proof.Machine

/-- `Clock.new` (R95): a fresh Clock in `Tick`; the output is the new instance, whose number is how many Clocks
existed before it (DESIGN CHOICE, log entry 21). Beyond `NUM_CLOCKS` it is refused (D18). -/
def execClockNew (s : State) : Answer :=
  if s.clocks.length < s.config.numClocks then s.addClock.complete (.clock s.clocks.length)
  else .refused .clocksExhausted

/-- `Clock.next` (R96): the phase toggles and nothing else changes; no DFF commits (C1). -/
def execClockNext (c : Nat) (s : State) : Answer :=
  withClock c s (fun p => (s.setClock c (phaseNext p)).complete .nothing)

/-- `Clock.phase` (R97): a pure read. -/
def execClockPhase (c : Nat) (s : State) : Answer :=
  withClock c s (fun p => s.complete (.phase p))

/-- `DFF.new` (R98): a fresh DFF `(O, O)`; the output is the new instance, whose number is how many
DFFs existed before it (DESIGN CHOICE, log entry 21). Beyond `NUM_DFFS` it is refused (D18). -/
def execDffNew (s : State) : Answer :=
  if s.dffs.length < s.config.numDffs then s.addDff.complete (.dff s.dffs.length)
  else .refused .dffsExhausted

/-- `DFF.input` (R99 in `Tick`, R100 in `Tock`): the phase is that of the Clock passed to this call (D10). -/
def execDffInput (d : Nat) (value : Bit) (c : Nat) (s : State) : Answer :=
  withDff d s (fun f => withClock c s (fun p => (s.setDff d (dffAfterInput p value f)).complete .nothing))

/-- `DFF.output` (R101): a pure read. -/
def execDffOutput (d : Nat) (c : Nat) (s : State) : Answer :=
  withDff d s (fun f => withClock c s (fun p => s.complete (.bit (dffVisible p f))))

end Sys2Proof.Machine
end

