-- ==== Sys2Proof/Machine/Dispatch.lean ====
section
/-! DEFINITION. One arm per constructor of Instr, each one direct call of that instruction's meaning. -/

namespace Sys2Proof.Machine

def exec (i : Instr) (s : State) : Host.Outcome State Fault Refusal :=
  match i with
  | .aluXAndY x y => Sys2Proof.Machine.execAluXAndY x y s
  | .alu000001 x y => Sys2Proof.Machine.execAlu000001 x y s
  | .aluXPlusY x y => Sys2Proof.Machine.execAluXPlusY x y s
  | .alu000011 x y => Sys2Proof.Machine.execAlu000011 x y s
  | .alu000100 x y => Sys2Proof.Machine.execAlu000100 x y s
  | .alu000101 x y => Sys2Proof.Machine.execAlu000101 x y s
  | .alu000110 x y => Sys2Proof.Machine.execAlu000110 x y s
  | .aluYMinusX x y => Sys2Proof.Machine.execAluYMinusX x y s
  | .alu001000 x y => Sys2Proof.Machine.execAlu001000 x y s
  | .alu001001 x y => Sys2Proof.Machine.execAlu001001 x y s
  | .alu001010 x y => Sys2Proof.Machine.execAlu001010 x y s
  | .alu001011 x y => Sys2Proof.Machine.execAlu001011 x y s
  | .aluX x y => Sys2Proof.Machine.execAluX x y s
  | .aluNotX x y => Sys2Proof.Machine.execAluNotX x y s
  | .aluXMinus1 x y => Sys2Proof.Machine.execAluXMinus1 x y s
  | .aluNegX x y => Sys2Proof.Machine.execAluNegX x y s
  | .alu010000 x y => Sys2Proof.Machine.execAlu010000 x y s
  | .alu010001 x y => Sys2Proof.Machine.execAlu010001 x y s
  | .alu010010 x y => Sys2Proof.Machine.execAlu010010 x y s
  | .aluXMinusY x y => Sys2Proof.Machine.execAluXMinusY x y s
  | .alu010100 x y => Sys2Proof.Machine.execAlu010100 x y s
  | .aluXOrY x y => Sys2Proof.Machine.execAluXOrY x y s
  | .alu010110 x y => Sys2Proof.Machine.execAlu010110 x y s
  | .alu010111 x y => Sys2Proof.Machine.execAlu010111 x y s
  | .alu011000 x y => Sys2Proof.Machine.execAlu011000 x y s
  | .alu011001 x y => Sys2Proof.Machine.execAlu011001 x y s
  | .alu011010 x y => Sys2Proof.Machine.execAlu011010 x y s
  | .alu011011 x y => Sys2Proof.Machine.execAlu011011 x y s
  | .alu011100 x y => Sys2Proof.Machine.execAlu011100 x y s
  | .alu011101 x y => Sys2Proof.Machine.execAlu011101 x y s
  | .alu011110 x y => Sys2Proof.Machine.execAlu011110 x y s
  | .aluXPlus1 x y => Sys2Proof.Machine.execAluXPlus1 x y s
  | .alu100000 x y => Sys2Proof.Machine.execAlu100000 x y s
  | .alu100001 x y => Sys2Proof.Machine.execAlu100001 x y s
  | .alu100010 x y => Sys2Proof.Machine.execAlu100010 x y s
  | .alu100011 x y => Sys2Proof.Machine.execAlu100011 x y s
  | .alu100100 x y => Sys2Proof.Machine.execAlu100100 x y s
  | .alu100101 x y => Sys2Proof.Machine.execAlu100101 x y s
  | .alu100110 x y => Sys2Proof.Machine.execAlu100110 x y s
  | .alu100111 x y => Sys2Proof.Machine.execAlu100111 x y s
  | .alu101000 x y => Sys2Proof.Machine.execAlu101000 x y s
  | .alu101001 x y => Sys2Proof.Machine.execAlu101001 x y s
  | .aluZero x y => Sys2Proof.Machine.execAluZero x y s
  | .alu101011 x y => Sys2Proof.Machine.execAlu101011 x y s
  | .alu101100 x y => Sys2Proof.Machine.execAlu101100 x y s
  | .alu101101 x y => Sys2Proof.Machine.execAlu101101 x y s
  | .alu101110 x y => Sys2Proof.Machine.execAlu101110 x y s
  | .alu101111 x y => Sys2Proof.Machine.execAlu101111 x y s
  | .aluY x y => Sys2Proof.Machine.execAluY x y s
  | .aluNotY x y => Sys2Proof.Machine.execAluNotY x y s
  | .aluYMinus1 x y => Sys2Proof.Machine.execAluYMinus1 x y s
  | .aluNegY x y => Sys2Proof.Machine.execAluNegY x y s
  | .alu110100 x y => Sys2Proof.Machine.execAlu110100 x y s
  | .alu110101 x y => Sys2Proof.Machine.execAlu110101 x y s
  | .alu110110 x y => Sys2Proof.Machine.execAlu110110 x y s
  | .aluYPlus1 x y => Sys2Proof.Machine.execAluYPlus1 x y s
  | .alu111000 x y => Sys2Proof.Machine.execAlu111000 x y s
  | .alu111001 x y => Sys2Proof.Machine.execAlu111001 x y s
  | .aluNegOne x y => Sys2Proof.Machine.execAluNegOne x y s
  | .alu111011 x y => Sys2Proof.Machine.execAlu111011 x y s
  | .alu111100 x y => Sys2Proof.Machine.execAlu111100 x y s
  | .alu111101 x y => Sys2Proof.Machine.execAlu111101 x y s
  | .alu111110 x y => Sys2Proof.Machine.execAlu111110 x y s
  | .aluOne x y => Sys2Proof.Machine.execAluOne x y s
  | .nand a b => Sys2Proof.Machine.execNand a b s
  | .not a => Sys2Proof.Machine.execNot a s
  | .and a b => Sys2Proof.Machine.execAnd a b s
  | .or a b => Sys2Proof.Machine.execOr a b s
  | .xor a b => Sys2Proof.Machine.execXor a b s
  | .mux a b sel => Sys2Proof.Machine.execMux a b sel s
  | .dMux inp sel => Sys2Proof.Machine.execDMux inp sel s
  | .not16 a => Sys2Proof.Machine.execNot16 a s
  | .and16 a b => Sys2Proof.Machine.execAnd16 a b s
  | .or16 a b => Sys2Proof.Machine.execOr16 a b s
  | .mux16 a b sel => Sys2Proof.Machine.execMux16 a b sel s
  | .or8Way in0 in1 in2 in3 in4 in5 in6 in7 => Sys2Proof.Machine.execOr8Way in0 in1 in2 in3 in4 in5 in6 in7 s
  | .mux4Way16 in0 in1 in2 in3 sel0 sel1 => Sys2Proof.Machine.execMux4Way16 in0 in1 in2 in3 sel0 sel1 s
  | .mux8Way16 in0 in1 in2 in3 in4 in5 in6 in7 sel0 sel1 sel2 => Sys2Proof.Machine.execMux8Way16 in0 in1 in2 in3 in4 in5 in6 in7 sel0 sel1 sel2 s
  | .dMux4Way inp sel0 sel1 => Sys2Proof.Machine.execDMux4Way inp sel0 sel1 s
  | .dMux8Way inp sel0 sel1 sel2 => Sys2Proof.Machine.execDMux8Way inp sel0 sel1 sel2 s
  | .halfAdder a b => Sys2Proof.Machine.execHalfAdder a b s
  | .fullAdder a b c => Sys2Proof.Machine.execFullAdder a b c s
  | .add16 a b => Sys2Proof.Machine.execAdd16 a b s
  | .inc16 a => Sys2Proof.Machine.execInc16 a s
  | .clockNew => Sys2Proof.Machine.execClockNew s
  | .clockNext c => Sys2Proof.Machine.execClockNext c s
  | .clockPhase c => Sys2Proof.Machine.execClockPhase c s
  | .dffNew => Sys2Proof.Machine.execDffNew s
  | .dffInput d value c => Sys2Proof.Machine.execDffInput d value c s
  | .dffOutput d c => Sys2Proof.Machine.execDffOutput d c s

end Sys2Proof.Machine
end

