-- ==== Sys2Proof/Machine/Driver.lean ====
section
/-! DEFINITION. The external driver (R30, R44, R111): issuing one encoded operation, evaluating a driver expression, running one driver
statement, and the pseudo-statements. -/

namespace Sys2Proof.Machine

open Sys2Proof.Bit

/-- Why a driver expression has no value: a boundary fault (R103) or a refusal. -/
inductive Stop where
  | fault (causes : List FaultReason)
  | refused (r : Refusal)
  deriving DecidableEq, Repr

/-- The outcome of a statement that stops: a fault enters the fault state, with no Clock or DFF changed (R105). -/
def stopWith (s : State) (st : Stop) : Answer :=
  match st with
  | .fault causes => .next (s.enterFault causes)
  | .refused r => .refused r

/-- Issue one encoded operation: decode it and run its meaning. -/
def issue (e : Encoded) (s : State) : Answer :=
  match decode e with
  | .ok i => exec i s
  | .error err => .refused (.encoding err)

/-- Issue an operation and bind its output to a name: `clock C` and `dff D` (R44). -/
def issueAs (n : Name) (e : Encoded) (s : State) : Answer :=
  match issue e s with
  | .next t => .next (t.bind n t.out)
  | .fault r => .fault r
  | .refused r => .refused r

/-- The outputs of an operation issued inside an expression, which changes no state (R28, R31, R44 "pure evaluation, no state change"). -/
def issueValue (e : Encoded) (s : State) : Except Stop Value :=
  match issue e s with
  | .next t => .ok t.out
  | .fault (.halted causes) => .error (.fault causes)
  | .refused r => .error (.refused r)

/-- A boundary operation's answer as an expression's. -/
def atBoundary {α : Type} (mk : α → Value) (r : Except (List FaultReason) α) : Except Stop Value :=
  match r with
  | .ok a => .ok (mk a)
  | .error causes => .error (.fault causes)

/-- The value of a driver name. -/
def lookupName (s : State) (n : Name) : Except Stop Value :=
  match s.value? n with
  | some v => .ok v
  | none => .error (.refused (.unboundName n))

/-- The Clock a driver name stands for. -/
def clockNamed (s : State) (n : Name) : Except Stop Nat :=
  match lookupName s n with
  | .ok (.clock c) => .ok c
  | .ok _ => .error (.refused .wrongKind)
  | .error st => .error st

/-- The DFF a driver name stands for. -/
def dffNamed (s : State) (n : Name) : Except Stop Nat :=
  match lookupName s n with
  | .ok (.dff d) => .ok d
  | .ok _ => .error (.refused .wrongKind)
  | .error st => .error st

/-- A value as the Bits of an input port (R39); a Phase is one Bit (D13; log entry 12). -/
def valueBits (v : Value) : Except Stop (List Bit) :=
  match v with
  | .bit b => .ok [b]
  | .word w => .ok (wordBits w)
  | .bits bs => .ok bs
  | .phase p => .ok [phaseBit p]
  | .nothing => .error (.refused .wrongKind)
  | .demux _ => .error (.refused .wrongKind)
  | .carrySum _ _ => .error (.refused .wrongKind)
  | .alu _ _ _ => .error (.refused .wrongKind)
  | .clock _ => .error (.refused .wrongKind)
  | .dff _ => .error (.refused .wrongKind)

/-- A value as one Bit. -/
def valueBit (v : Value) : Except Stop Bit :=
  match valueBits v with
  | .ok [b] => .ok b
  | .ok _ => .error (.refused .wrongKind)
  | .error st => .error st

/-- A value as a Word. -/
def valueWord (v : Value) : Except Stop Word :=
  match v with
  | .word w => .ok w
  | _ => .error (.refused .wrongKind)

/-- Bits side by side: 16 of them are a Word (`output16`, R44), any other number stays a list of Bits
(log entry 13). -/
def packValue (bs : List Bit) : Value :=
  if bs.length = 16 then .word (wordOfBits bs) else .bits bs

/-- One output port of a component's or event's result (R39). Any expression may stand before the port. DESIGN CHOICE (log entry 20): a
value does not say which expression made it, so `out` of a single Bit or Word that is no component's result is that Bit or Word. -/
def selectPort (v : Value) (p : Port) : Except Stop Value :=
  match v, p with
  | .bit b, .out => .ok (.bit b)
  | .word w, .out => .ok (.word w)
  | .alu out _ _, .out => .ok (.word out)
  | .alu _ zr _, .zr => .ok (.bit zr)
  | .alu _ _ ng, .ng => .ok (.bit ng)
  | .carrySum carry _, .carry => .ok (.bit carry)
  | .carrySum _ sum, .sum => .ok (.bit sum)
  | .phase p, .phase => .ok (.phase p)
  | .demux outs, .outAt k =>
    match outs[k]? with
    | some b => .ok (.bit b)
    | none => .error (.refused .wrongKind)
  | _, _ => .error (.refused .wrongKind)

/-- Evaluate a component on its arguments, one argument per input port, each of the port's width (R37, R39, D24). -/
def callComponent (s : State) (row : Nat) (args : List (List Bit)) : Except Stop Value :=
  match rowShape row with
  | none => .error (.refused (.encoding (.unknownBlock row)))
  | some sh =>
    if !isComponentRow row then .error (.refused (.notComponent row))
    else if args.map List.length ≠ sh.ports then .error (.refused (.wrongArguments row))
    else issueValue ⟨row, [], args.flatten⟩ s

/-- The expression `output D, C` (R101). -/
def outputValue (s : State) (d c : Name) : Except Stop Value :=
  match dffNamed s d with
  | .error st => .error st
  | .ok d' =>
    match clockNamed s c with
    | .error st => .error st
    | .ok c' => issueValue ⟨89, [d', c'], []⟩ s

/-- The expression `phase C` (R97). -/
def phaseValue (s : State) (c : Name) : Except Stop Value :=
  match clockNamed s c with
  | .error st => .error st
  | .ok c' => issueValue ⟨86, [c'], []⟩ s

mutual
/-- The value of a driver expression (R44): a pure evaluation over the state, operands from left to right (log entry 7), inside
the one step of its statement (log entry 18). -/
def eval (s : State) : Expr → Except Stop Value
  | .bit b => .ok (.bit b)
  | .word w => .ok (.word w)
  | .tokens ts => atBoundary .word (wordOfTokens ts)
  | .number n => atBoundary .bit (bitOfNumber n)
  | .name n => lookupName s n
  | .port e p =>
    match eval s e with
    | .error st => .error st
    | .ok v => selectPort v p
  | .index e i =>
    match eval s e with
    | .error st => .error st
    | .ok v =>
      match valueWord v with
      | .error st => .error st
      | .ok w => atBoundary .bit (readIndex w i)
  | .pack es =>
    match evalArgs s es with
    | .error st => .error st
    | .ok bss => .ok (packValue bss.flatten)
  | .call row args =>
    match evalArgs s args with
    | .error st => .error st
    | .ok bss => callComponent s row bss
  | .output d c => outputValue s d c
  | .phase c => phaseValue s c

/-- The values of a list of arguments, each as the Bits of an input port. -/
def evalArgs (s : State) : Args → Except Stop (List (List Bit))
  | .nil => .ok []
  | .cons e es =>
    match eval s e with
    | .error st => .error st
    | .ok v =>
      match valueBits v with
      | .error st => .error st
      | .ok bs =>
        match evalArgs s es with
        | .error st => .error st
        | .ok bss => .ok (bs :: bss)
end

/-- The value of an expression as one Bit. -/
def evalBit (s : State) (e : Expr) : Except Stop Bit :=
  match eval s e with
  | .error st => .error st
  | .ok v => valueBit v

/-- One program after another. -/
def appendProg : Prog → Prog → Prog
  | .nil, q => q
  | .cons st p, q => .cons st (appendProg p q)

/-- `next C` (R96). -/
def runNext (s : State) (c : Name) : Answer :=
  match clockNamed s c with
  | .error st => stopWith s st
  | .ok c' => issue ⟨85, [c'], []⟩ s

/-- `input D, bexpr, C` (R99, R100): the names, then the Bit, then the operation. -/
def runInput (s : State) (d : Name) (e : Expr) (c : Name) : Answer :=
  match dffNamed s d with
  | .error st => stopWith s st
  | .ok d' =>
    match clockNamed s c with
    | .error st => stopWith s st
    | .ok c' =>
      match evalBit s e with
      | .error st => stopWith s st
      | .ok b => issue ⟨88, [d', c'], [b]⟩ s

/-- `let name = expr`: a pure evaluation whose value the name then stands for. -/
def runLet (s : State) (n : Name) (e : Expr) : Answer :=
  match eval s e with
  | .error st => stopWith s st
  | .ok v => .next ((s.setOut v).bind n v)

/-- `repeat n` and its body: "n copies of the body, n a numeral". -/
def runLoop (s : State) (n : Nat) (body : Prog) : Answer :=
  match n with
  | 0 => .next s
  | k + 1 => .next (s.setProgram (appendProg body (.cons (.loop k body) s.program)))

/-- `if bexpr`: the driver's choice on a Bit; `I` takes the first branch. -/
def runIf (s : State) (e : Expr) (yes no : Prog) : Answer :=
  match evalBit s e with
  | .error st => stopWith s st
  | .ok b => .next (s.setProgram (appendProg (if b then yes else no) s.program))

/-- Run one driver statement in the state whose program is what follows the statement (R44). -/
def runStmt (st : Stmt) (s : State) : Answer :=
  match st with
  | .op e => issue e s
  | .clock c => issueAs c ⟨84, [], []⟩ s
  | .dff d => issueAs d ⟨87, [], []⟩ s
  | .next c => runNext s c
  | .input d e c => runInput s d e c
  | .letE n e => runLet s n e
  | .loop n body => runLoop s n body
  | .ifElse e yes no => runIf s e yes no

/-- One step of the driver (R30, R105): in the fault state, no step; with no statement left, nothing happens (log entry 8);
else the next statement runs. -/
def driverStep (s : State) : Answer :=
  match s.fault with
  | some causes => .fault (.halted causes)
  | none =>
    match s.program with
    | .nil => .next s
    | .cons st rest => runStmt st (s.setProgram rest)

/-- Put one encoded operation in front of the driver's program, where `driverStep` takes its next statement. -/
def placeOp (s : State) (e : Encoded) : State := s.setProgram (.cons (.op e) s.program)

/-- A driver program from a list of statements. -/
def progOf (sts : List Stmt) : Prog := sts.foldr .cons .nil

/-- `dff16 R`: `dff R[0]` … `dff R[15]` (R44). -/
def dff16 (r : Nat) : List Stmt := (List.range 16).map (fun k => .dff (.elem r k))

/-- `input16 R, wexpr, C`: `let t = wexpr`, then `input R[k], t[k], C` for `k` ascending (R44). -/
def input16 (r : Nat) (e : Expr) (c : Name) : List Stmt :=
  .letE .scratch e :: (List.range 16).map (fun k => .input (.elem r k) (.index (.name .scratch) k) c)

/-- `output16 R, C`: the Word whose index `k` is `output R[k], C` (R44). -/
def output16 (r : Nat) (c : Name) : Expr :=
  .pack ((List.range 16).foldr (fun k es => .cons (.output (.elem r k) c) es) .nil)

end Sys2Proof.Machine
end

