-- ==== Sys2Proof/Machine/Step.lean ====
section
/-! DEFINITION. The machine's step, one operation of the driver (R12, R30), and how the host places one instruction. -/

namespace Sys2Proof.Machine

/-- One step: `driverStep`. -/
def step (s : State) : Host.Outcome State Fault Refusal := driverStep s

/-- `s` with the operation of a table word as the driver's next statement (log entry 2). The fault record stays: it is never cleared (R105). -/
def State.withFetchWord (s : State) (nbits w : Nat) : State := placeOp s (encodedOfTableWord nbits w)

end Sys2Proof.Machine
end

