-- ==== Sys2Proof/Safety.lean ====
section
/-! DEFINITION. What counts as a good state and a safe run, in the terms statements use. -/

namespace Sys2Proof.Machine

/-- A value refers only to instances that were created. -/
def refsExist (s : State) (v : Value) : Bool :=
  match v with
  | .clock c => c < s.clocks.length
  | .dff d => d < s.dffs.length
  | .nothing => true
  | .bit _ => true
  | .word _ => true
  | .bits _ => true
  | .demux _ => true
  | .carrySum _ _ => true
  | .alu _ _ _ => true
  | .phase _ => true

/-- The sets of causes R103 and R107 let one operation record. -/
def causesLegal (causes : List FaultReason) : Bool :=
  match causes with
  | [.malformedWordLength n] => n != 16
  | [.malformedWordToken k] => decide (k < 16)
  | [.malformedWordLength n, .malformedWordToken k] => n != 16 && decide (k < n)
  | [.bitValueOutOfRange n] => n != 0 && n != 1
  | [.indexOutOfRange i] => decide (16 ≤ i)
  | _ => false

/-- The fault record is empty or a set of causes that one operation can have (R103, R105, R107). -/
def faultLegal (s : State) : Bool :=
  match s.fault with
  | none => true
  | some causes => causesLegal causes

/-- What holds of every state a run reaches: the instance counts respect the bounds (R5, D18), the fault record is one the spec
allows (R103, R107), and every instance the driver holds exists (R23, R24: instances persist). -/
structure Inv (s : State) : Prop where
  clocksBounded : s.clocks.length ≤ s.config.numClocks
  dffsBounded : s.dffs.length ≤ s.config.numDffs
  faultLegal : faultLegal s = true
  namesExist : ∀ b ∈ s.env, refsExist s b.2 = true
  outExists : refsExist s s.out = true

/-- A safe state: no fault has been recorded, so the run can go on (R105: a faulted run is "not a normal end of the run"). -/
def Safe (s : State) : Prop := s.fault = none

end Sys2Proof.Machine
end

