-- ==== Sys2Proof/Certificates/Slice0/Obligations.lean ====
section
/-! DEFINITION. The statements for the provers, each from a rule of spec/ or from a convention of the log it names. -/

open Sys2Proof Sys2Proof.Bit Sys2Proof.Machine

/-! Words the statements use. -/

/-- Go on from a next state; a fault or a refusal stays as it is. -/
def Sys2Proof.Statements.andThen (a : Answer) (k : State → Answer) : Answer :=
  match a with
  | .next t => k t
  | .fault r => .fault r
  | .refused r => .refused r

/-- Run instructions in order (R30). -/
def Sys2Proof.Statements.runAll (is : List Instr) (s : State) : Answer :=
  match is with
  | [] => .next s
  | i :: rest => Sys2Proof.Statements.andThen (exec i s) (Sys2Proof.Statements.runAll rest)

/-- An answer without the outputs of its last operation (log entry 3). -/
def Sys2Proof.Statements.forgetOut (a : Answer) : Answer := Sys2Proof.Statements.andThen a (fun t => .next { t with out := .nothing })

/-- Reading a name in `t`: `n` stands for `v`, and every other name for what it stood for in `s` (R44; log entry 4). -/
def Sys2Proof.Statements.binds (n : Name) (v : Value) (s t : State) : Prop :=
  t.value? n = some v ∧ ∀ m, m ≠ n → t.value? m = s.value? m

/-- The outputs after running instructions in order, if all of them complete. -/
def Sys2Proof.Statements.outputs (is : List Instr) (s : State) : Option Value :=
  match Sys2Proof.Statements.runAll is s with
  | .next t => some t.out
  | .fault _ => none
  | .refused _ => none

/-- The Bit a component's evaluation gives. -/
def Sys2Proof.Statements.bitOut (i : Instr) : Bit :=
  match Sys2Proof.Statements.outputs [i] State.reset with
  | some (.bit b) => b
  | _ => O

/-- The Word a component's evaluation gives. -/
def Sys2Proof.Statements.wordOut (i : Instr) : Word :=
  match Sys2Proof.Statements.outputs [i] State.reset with
  | some (.word w) => w
  | _ => zero16

/-- The outputs of a demultiplexer's evaluation. -/
def Sys2Proof.Statements.demuxOut (i : Instr) : List Bit :=
  match Sys2Proof.Statements.outputs [i] State.reset with
  | some (.demux bs) => bs
  | _ => []

/-- One cycle of R102: an input, then `next` twice. -/
def Sys2Proof.Statements.cycle (d : Nat) (c : Nat) (v : Bit) : List Instr := [.dffInput d v c, .clockNext c, .clockNext c]

/-- The packed control code (R36). -/
def Sys2Proof.Statements.aluCode (zx nx zy ny f no : Bit) : Nat :=
  zx.toNat * 32 + nx.toNat * 16 + zy.toNat * 8 + ny.toNat * 4 + f.toNat * 2 + no.toNat * 1

/-- An ALU evaluation that completes with this output Word: `zr` is `I` exactly when it is `zero16` and `ng` exactly when it is
negative (R73, R74); nothing else changes (R19, R20). -/
def Sys2Proof.Statements.aluDone (s : State) (out : Word) : Answer :=
  .next { s with out := .alu out (decide (uval out = 0)) (decide (sval out < 0)) }

/-- The output Word of an ALU code at `x`, `y`. -/
def Sys2Proof.Statements.aluWord (code : Nat) (x y : Word) : Option Word :=
  match aluInstr x y code with
  | none => none
  | some i =>
    match Sys2Proof.Statements.outputs [i] State.reset with
    | some (.alu out _ _) => some out
    | _ => none

/-- The six classes of R75 whose codes compute one function: `zero16`, `ones16`, `x`, `~x`, `y`, `~y`. -/
def Sys2Proof.Statements.aluClasses : List (List Nat) :=
  [ [8, 24, 32, 36, 40, 42, 44, 47, 56, 59, 61],
    [9, 25, 33, 37, 41, 43, 45, 46, 57, 58, 60],
    [10, 12, 27, 29],
    [11, 13, 26, 28],
    [34, 39, 48, 53],
    [35, 38, 49, 52] ]

open Sys2Proof.Statements

/-! Gates and the combinational library (R45 to R60). -/

/-- R45: the truth table of the one primitive. -/
def Obligations.NandFollowsItsTable : Prop :=
  ∀ s : State,
    exec (.nand O O) s = .next { s with out := .bit I } ∧ exec (.nand O I) s = .next { s with out := .bit I } ∧
    exec (.nand I O) s = .next { s with out := .bit I } ∧ exec (.nand I I) s = .next { s with out := .bit O }

/-- R46 to R49: `Not`, `And`, `Or`, `Xor`, by their tables and by the source's compositions. -/
def Obligations.ScalarGatesFollowTheirTables : Prop :=
  ∀ (a b : Bit) (s : State),
    exec (.not a) s = .next { s with out := .bit (!a) } ∧
    exec (.and a b) s = .next { s with out := .bit (a && b) } ∧
    exec (.or a b) s = .next { s with out := .bit (a || b) } ∧
    exec (.xor a b) s = .next { s with out := .bit (decide (a ≠ b)) } ∧
    bitOut (.not a) = bitOut (.nand a a) ∧
    bitOut (.and a b) = bitOut (.not (bitOut (.nand a b))) ∧
    bitOut (.or a b) = bitOut (.nand (bitOut (.not a)) (bitOut (.not b))) ∧
    bitOut (.xor a b) = bitOut (.or (bitOut (.and a (bitOut (.not b)))) (bitOut (.and b (bitOut (.not a)))))

/-- R50, R51: `Mux` selects, `DMux` routes and the output not selected is `O`; and the source's compositions. -/
def Obligations.MuxSelectsAndDMuxRoutes : Prop :=
  ∀ (a b inp sel : Bit) (s : State),
    exec (.mux a b sel) s = .next { s with out := .bit (if sel = O then a else b) } ∧
    exec (.dMux inp sel) s = .next { s with out := .demux (if sel = O then [inp, O] else [O, inp]) } ∧
    bitOut (.mux a b sel) = bitOut (.or (bitOut (.and a (bitOut (.not sel)))) (bitOut (.and b sel))) ∧
    demuxOut (.dMux inp sel) = [bitOut (.and inp (bitOut (.not sel))), bitOut (.and inp sel)]

/-- R52: `Not16` negates every lane; and the closed forms the spec derives from that. -/
def Obligations.Not16NegatesEveryLane : Prop :=
  ∀ (a : Word) (s : State), ∃ w : Word,
    exec (.not16 a) s = .next { s with out := .word w } ∧ (∀ i, i < 16 → bit w i = !bit a i) ∧
    uval w = 65535 - uval a ∧ sval w = -sval a - 1

/-- R53, R54: `And16` and `Or16` work lane by lane. -/
def Obligations.And16AndOr16WorkLaneByLane : Prop :=
  ∀ (a b : Word) (s : State),
    (∃ w : Word, exec (.and16 a b) s = .next { s with out := .word w } ∧ ∀ i, i < 16 → bit w i = (bit a i && bit b i)) ∧
    (∃ w : Word, exec (.or16 a b) s = .next { s with out := .word w } ∧ ∀ i, i < 16 → bit w i = (bit a i || bit b i))

/-- R55: `Mux16` returns `a` for `sel = O` and `b` for `sel = I`. -/
def Obligations.Mux16SelectsAWord : Prop :=
  ∀ (a b : Word) (sel : Bit) (s : State),
    exec (.mux16 a b sel) s = .next { s with out := .word (if sel = O then a else b) }

/-- R56: the result is `I` iff at least one input is `I`. -/
def Obligations.Or8WayIsTheOrOfItsInputs : Prop :=
  ∀ (in0 in1 in2 in3 in4 in5 in6 in7 : Bit) (s : State), ∃ r : Bit,
    exec (.or8Way in0 in1 in2 in3 in4 in5 in6 in7) s = .next { s with out := .bit r } ∧
    (r = I ↔ I ∈ [in0, in1, in2, in3, in4, in5, in6, in7])

/-- R57, R58: the trees of `Mux16` with `sel[0]` the outermost choice; so the output is input `in_j` for `j = selval(sel)`, `sel[0]` the
most significant (R37). The numbering of the inputs is the spec's own decision D5. -/
def Obligations.WideMuxSelectsBySelectorValue : Prop :=
  ∀ (in0 in1 in2 in3 in4 in5 in6 in7 : Word) (sel0 sel1 sel2 : Bit) (s : State),
    (∃ w : Word, exec (.mux4Way16 in0 in1 in2 in3 sel0 sel1) s = .next { s with out := .word w } ∧
      [in0, in1, in2, in3][2 * sel0.toNat + sel1.toNat]? = some w) ∧
    (∃ w : Word, exec (.mux8Way16 in0 in1 in2 in3 in4 in5 in6 in7 sel0 sel1 sel2) s = .next { s with out := .word w } ∧
      [in0, in1, in2, in3, in4, in5, in6, in7][4 * sel0.toNat + 2 * sel1.toNat + sel2.toNat]? = some w) ∧
    wordOut (.mux4Way16 in0 in1 in2 in3 sel0 sel1) =
      wordOut (.mux16 (wordOut (.mux16 in0 in1 sel1)) (wordOut (.mux16 in2 in3 sel1)) sel0) ∧
    wordOut (.mux8Way16 in0 in1 in2 in3 in4 in5 in6 in7 sel0 sel1 sel2) =
      wordOut (.mux16 (wordOut (.mux4Way16 in0 in1 in2 in3 sel1 sel2)) (wordOut (.mux4Way16 in4 in5 in6 in7 sel1 sel2)) sel0)

/-- R59, R60: the trees of `DMux`, `sel[0]` first; so output `out_j` is the input for `j = selval(sel)` and every other output is
`O` (R37). The numbering of the outputs is the spec's own decision D5. -/
def Obligations.WideDMuxRoutesBySelectorValue : Prop :=
  ∀ (inp sel0 sel1 sel2 : Bit) (s : State),
    exec (.dMux4Way inp sel0 sel1) s =
      .next { s with out := .demux ((List.replicate 4 O).set (2 * sel0.toNat + sel1.toNat) inp) } ∧
    exec (.dMux8Way inp sel0 sel1 sel2) s =
      .next { s with out := .demux ((List.replicate 8 O).set (4 * sel0.toNat + 2 * sel1.toNat + sel2.toNat) inp) } ∧
    ∃ h0 h1 : Bit, demuxOut (.dMux inp sel0) = [h0, h1] ∧
      demuxOut (.dMux4Way inp sel0 sel1) = demuxOut (.dMux h0 sel1) ++ demuxOut (.dMux h1 sel1) ∧
      demuxOut (.dMux8Way inp sel0 sel1 sel2) = demuxOut (.dMux4Way h0 sel1 sel2) ++ demuxOut (.dMux4Way h1 sel1 sel2)

/-! Word arithmetic (R62 to R65). -/

/-- R62, R63: `2·carry + sum` is the sum of the inputs; a half adder is `And` and `Xor`, a full adder two half adders and an `Or`. -/
def Obligations.OneBitAddersAdd : Prop :=
  ∀ (a b c : Bit) (s : State),
    (∃ carry sum : Bit, exec (.halfAdder a b) s = .next { s with out := .carrySum carry sum } ∧
      2 * carry.toNat + sum.toNat = a.toNat + b.toNat ∧ carry = bitOut (.and a b) ∧ sum = bitOut (.xor a b)) ∧
    (∃ carry sum : Bit, exec (.fullAdder a b c) s = .next { s with out := .carrySum carry sum } ∧
      2 * carry.toNat + sum.toNat = a.toNat + b.toNat + c.toNat ∧
      ∃ c1 s1 c2 : Bit, exec (.halfAdder a b) s = .next { s with out := .carrySum c1 s1 } ∧
        exec (.halfAdder s1 c) s = .next { s with out := .carrySum c2 sum } ∧ carry = bitOut (.or c1 c2))

/-- R64: the sum modulo 2^16, unsigned and two's complement, with no flag and no carry out; and it is the ripple of full adders: `cs i`
is the carry out of index `i`, the carry into index 15 is `O`. -/
def Obligations.Add16AddsModulo65536 : Prop :=
  ∀ (a b : Word) (s : State), ∃ w : Word,
    exec (.add16 a b) s = .next { s with out := .word w } ∧ uval w = (uval a + uval b) % 65536 ∧
    sval w = Int.bmod (sval a + sval b) 65536 ∧
    ∃ cs : Nat → Bit, cs 16 = O ∧ ∀ i, i < 16 →
      exec (.fullAdder (bit a i) (bit b i) (cs (i + 1))) s = .next { s with out := .carrySum (cs i) (bit w i) }

/-- R65: `Inc16` adds one modulo 2^16, and is `Add16` with `one16`. -/
def Obligations.Inc16AddsOneModulo65536 : Prop :=
  ∀ (a : Word) (s : State),
    exec (.inc16 a) s = exec (.add16 a one16) s ∧
    ∃ w : Word, exec (.inc16 a) s = .next { s with out := .word w } ∧ uval w = (uval a + 1) % 65536

/-! The ALU (R68 to R94). -/

/-- R36, R69 to R74: the instruction whose packed code is `zx nx zy ny f no` computes the source's six steps, for every code. -/
def Obligations.AluRunsThePipelineForEveryCode : Prop :=
  ∀ (zx nx zy ny f no : Bit) (x y : Word) (s : State),
    let x1 := if zx = I then zero16 else x
    let x2 := if nx = I then ~~~x1 else x1
    let y1 := if zy = I then zero16 else y
    let y2 := if ny = I then ~~~y1 else y1
    let pre := if f = I then x2 + y2 else x2 &&& y2
    let out := if no = I then ~~~pre else pre
    ∃ i : Instr, decode ⟨aluCode zx nx zy ny f no, [], wordBits x ++ wordBits y⟩ = .ok i ∧
      exec i s = .next { s with out := .alu out (decide (out = zero16)) (bit out 0) }

/-- The 24 codes whose result is a constant (R75; `ALU 0` R76, `ALU 1` R77, `ALU -1` R78), for every `x` and `y`;
the spec derives them, and takes the codes of its names from general knowledge (D9, log entry 14). -/
def Obligations.AluConstantCodes : Prop :=
  ∀ (x y : Word) (s : State),
    exec (.alu001000 x y) s = aluDone s (zero16) ∧
    exec (.alu001001 x y) s = aluDone s (ones16) ∧
    exec (.alu011000 x y) s = aluDone s (zero16) ∧
    exec (.alu011001 x y) s = aluDone s (ones16) ∧
    exec (.alu100000 x y) s = aluDone s (zero16) ∧
    exec (.alu100001 x y) s = aluDone s (ones16) ∧
    exec (.alu100100 x y) s = aluDone s (zero16) ∧
    exec (.alu100101 x y) s = aluDone s (ones16) ∧
    exec (.alu101000 x y) s = aluDone s (zero16) ∧
    exec (.alu101001 x y) s = aluDone s (ones16) ∧
    exec (.aluZero x y) s = aluDone s (zero16) ∧
    exec (.alu101011 x y) s = aluDone s (ones16) ∧
    exec (.alu101100 x y) s = aluDone s (zero16) ∧
    exec (.alu101101 x y) s = aluDone s (ones16) ∧
    exec (.alu101110 x y) s = aluDone s (ones16) ∧
    exec (.alu101111 x y) s = aluDone s (zero16) ∧
    exec (.alu111000 x y) s = aluDone s (zero16) ∧
    exec (.alu111001 x y) s = aluDone s (ones16) ∧
    exec (.aluNegOne x y) s = aluDone s (ones16) ∧
    exec (.alu111011 x y) s = aluDone s (zero16) ∧
    exec (.alu111100 x y) s = aluDone s (ones16) ∧
    exec (.alu111101 x y) s = aluDone s (zero16) ∧
    exec (.alu111110 x y) s = aluDone s (0xFFFE#16) ∧
    exec (.aluOne x y) s = aluDone s (one16)

/-- The 12 codes whose result depends on `x` alone (R75; `x` R79, `!x` R81, `-x` R83, `x+1` R85, `x-1` R87);
the spec derives them, and takes the codes of its names from general knowledge (D9, log entry 14). -/
def Obligations.AluCodesOfX : Prop :=
  ∀ (x y : Word) (s : State),
    exec (.alu001010 x y) s = aluDone s (x) ∧
    exec (.alu001011 x y) s = aluDone s (word (-(uval x : Int) - 1)) ∧
    exec (.aluX x y) s = aluDone s (x) ∧
    exec (.aluNotX x y) s = aluDone s (~~~x) ∧
    exec (.aluXMinus1 x y) s = aluDone s (word ((uval x : Int) - 1)) ∧
    exec (.aluNegX x y) s = aluDone s (word (-sval x)) ∧
    exec (.alu011010 x y) s = aluDone s (word (-(uval x : Int) - 1)) ∧
    exec (.alu011011 x y) s = aluDone s (x) ∧
    exec (.alu011100 x y) s = aluDone s (~~~x) ∧
    exec (.alu011101 x y) s = aluDone s (x) ∧
    exec (.alu011110 x y) s = aluDone s (word (-(uval x : Int) - 2)) ∧
    exec (.aluXPlus1 x y) s = aluDone s (word ((uval x : Int) + 1))

/-- The 12 codes whose result depends on `y` alone (R75; `y` R80, `!y` R82, `-y` R84, `y+1` R86, `y-1` R88);
the spec derives them, and takes the codes of its names from general knowledge (D9, log entry 14). -/
def Obligations.AluCodesOfY : Prop :=
  ∀ (x y : Word) (s : State),
    exec (.alu100010 x y) s = aluDone s (y) ∧
    exec (.alu100011 x y) s = aluDone s (word (-(uval y : Int) - 1)) ∧
    exec (.alu100110 x y) s = aluDone s (word (-(uval y : Int) - 1)) ∧
    exec (.alu100111 x y) s = aluDone s (y) ∧
    exec (.aluY x y) s = aluDone s (y) ∧
    exec (.aluNotY x y) s = aluDone s (~~~y) ∧
    exec (.aluYMinus1 x y) s = aluDone s (word ((uval y : Int) - 1)) ∧
    exec (.aluNegY x y) s = aluDone s (word (-sval y)) ∧
    exec (.alu110100 x y) s = aluDone s (~~~y) ∧
    exec (.alu110101 x y) s = aluDone s (y) ∧
    exec (.alu110110 x y) s = aluDone s (word (-(uval y : Int) - 2)) ∧
    exec (.aluYPlus1 x y) s = aluDone s (word ((uval y : Int) + 1))

/-- The 8 codes that combine `x` and `y` Bit by Bit (R75; `x&y` R92, `x|y` R93);
the spec derives them, and takes the codes of its names from general knowledge (D9, log entry 14). -/
def Obligations.AluBitwiseCodes : Prop :=
  ∀ (x y : Word) (s : State),
    exec (.aluXAndY x y) s = aluDone s (x &&& y) ∧
    exec (.alu000001 x y) s = aluDone s (~~~x ||| ~~~y) ∧
    exec (.alu000100 x y) s = aluDone s (x &&& ~~~y) ∧
    exec (.alu000101 x y) s = aluDone s (~~~x ||| y) ∧
    exec (.alu010000 x y) s = aluDone s (~~~x &&& y) ∧
    exec (.alu010001 x y) s = aluDone s (x ||| ~~~y) ∧
    exec (.alu010100 x y) s = aluDone s (~~~x &&& ~~~y) ∧
    exec (.aluXOrY x y) s = aluDone s (x ||| y)

/-- The 8 codes that add or subtract `x` and `y` modulo 2^16 (R75; `x+y` R89, `x-y` R90, `y-x` R91);
the spec derives them, and takes the codes of its names from general knowledge (D9, log entry 14). -/
def Obligations.AluSumCodes : Prop :=
  ∀ (x y : Word) (s : State),
    exec (.aluXPlusY x y) s = aluDone s (word ((uval x : Int) + uval y)) ∧
    exec (.alu000011 x y) s = aluDone s (word (-(uval x : Int) - uval y - 1)) ∧
    exec (.alu000110 x y) s = aluDone s (word ((uval x : Int) - uval y - 1)) ∧
    exec (.aluYMinusX x y) s = aluDone s (word ((uval y : Int) - uval x)) ∧
    exec (.alu010010 x y) s = aluDone s (word (-(uval x : Int) + uval y - 1)) ∧
    exec (.aluXMinusY x y) s = aluDone s (word ((uval x : Int) - uval y)) ∧
    exec (.alu010110 x y) s = aluDone s (word (-(uval x : Int) - uval y - 2)) ∧
    exec (.alu010111 x y) s = aluDone s (word ((uval x : Int) + uval y + 1))

/-- R75: two codes compute the same function exactly when they are equal or stand in one of the six listed classes; every code
computes one. -/
def Obligations.AluCodesThatComputeOneFunction : Prop :=
  ∀ c d : Nat, c < 64 → d < 64 →
    (∀ x y, aluWord c x y ≠ none) ∧
    ((∀ x y, aluWord c x y = aluWord d x y) ↔ (c = d ∨ ∃ cls ∈ aluClasses, c ∈ cls ∧ d ∈ cls))

/-- R20, R73, R74: whatever instruction gives the ALU's outputs, the flags are those of its output Word, and never both `I`. -/
def Obligations.AluFlagsAreDerivedFromTheOutput : Prop :=
  ∀ (i : Instr) (s t : State) (out : Word) (zr ng : Bit), exec i s = .next t → t.out = .alu out zr ng →
    (zr = I ↔ uval out = 0) ∧ (ng = I ↔ 0x8000 ≤ uval out) ∧ ng = bit out 0 ∧ ¬(zr = I ∧ ng = I)

/-- R19, R31, R61, R68: a component is a function of its inputs: it completes in every state with the same outputs and changes
nothing else. Rows 0 to 83 are the ALU codes and the components. -/
def Obligations.ComponentsArePureFunctions : Prop :=
  ∀ i : Instr, (encode i).row < 84 → ∃ v : Value, ∀ s : State, exec i s = .next { s with out := v }

/-! Clock and DFF (R95 to R102). -/

/-- R95: a new Clock is in `Tick` and distinct from every existing one; beyond `NUM_CLOCKS` it is refused (the spec's
decision D18, log entry 1). The number of the new instance is the model's choice (log entry 21). -/
def Obligations.ClockNewCreatesAClockInTick : Prop :=
  ∀ s : State,
    (s.clocks.length < s.config.numClocks →
      exec .clockNew s = .next { s with clocks := s.clocks ++ [.tick], out := .clock s.clocks.length }) ∧
    (s.config.numClocks ≤ s.clocks.length → exec .clockNew s = .refused .clocksExhausted)

/-- R96: `next` toggles the phase and changes nothing else; twice restores it. -/
def Obligations.ClockNextTogglesThePhase : Prop :=
  ∀ (s : State) (c : Nat),
    (s.clocks[c]? = some .tick → exec (.clockNext c) s = .next { s with clocks := s.clocks.set c .tock, out := .nothing }) ∧
    (s.clocks[c]? = some .tock → exec (.clockNext c) s = .next { s with clocks := s.clocks.set c .tick, out := .nothing }) ∧
    (c < s.clocks.length → runAll [.clockNext c, .clockNext c] s = .next { s with out := .nothing })

/-- R97: `phase` is a pure read of the phase. -/
def Obligations.ClockPhaseReadsThePhase : Prop :=
  ∀ (s : State) (c : Nat) (p : Phase), s.clocks[c]? = some p →
    exec (.clockPhase c) s = .next { s with out := .phase p }

/-- R98: a new DFF is `(O, O)` (the source's "fresh `DFF`", decision D16, log entry 15); beyond `NUM_DFFS` it is refused
(D18, log entry 1). The number of the new instance is the model's choice (log entry 21). -/
def Obligations.DffNewCreatesAClearedDff : Prop :=
  ∀ s : State,
    (s.dffs.length < s.config.numDffs →
      exec .dffNew s = .next { s with dffs := s.dffs ++ [⟨O, O⟩], out := .dff s.dffs.length }) ∧
    (s.config.numDffs ≤ s.dffs.length → exec .dffNew s = .refused .dffsExhausted)

/-- R99: an input in `Tick` commits the pending value, then latches the new one. -/
def Obligations.DffInputInTickCommitsThenLatches : Prop :=
  ∀ (s : State) (d : Nat) (c : Nat) (value : Bit) (f : Dff), s.dffs[d]? = some f → s.clocks[c]? = some .tick →
    exec (.dffInput d value c) s =
      .next { s with dffs := s.dffs.set d { committed := f.pending, pending := value }, out := .nothing }

/-- R100: an input in `Tock` changes no field, however often it is given. -/
def Obligations.DffInputInTockDoesNothing : Prop :=
  ∀ (s : State) (d : Nat) (c : Nat) (value : Bit) (f : Dff), s.dffs[d]? = some f → s.clocks[c]? = some .tock →
    exec (.dffInput d value c) s = .next { s with out := .nothing }

/-- R101: `output` reads `committed` in `Tick` and `pending` in `Tock`, and changes nothing. -/
def Obligations.DffOutputReadsTheVisibleField : Prop :=
  ∀ (s : State) (d : Nat) (c : Nat) (f : Dff), s.dffs[d]? = some f →
    (s.clocks[c]? = some .tick → exec (.dffOutput d c) s = .next { s with out := .bit f.committed }) ∧
    (s.clocks[c]? = some .tock → exec (.dffOutput d c) s = .next { s with out := .bit f.pending })

/-- R119: `m` inputs `u_1 … u_m` in one `Tick` leave `committed = u_(m-1)` (the old `pending` for `m = 1`) and `pending = u_m`;
the spec derives it from R99. -/
def Obligations.EveryInputInATickCommits : Prop :=
  ∀ (s : State) (d : Nat) (c : Nat) (us : List Bit) (u : Bit) (f : Dff),
    s.dffs[d]? = some f → s.clocks[c]? = some .tick →
    ∃ t : State, runAll ((us ++ [u]).map (fun v => Instr.dffInput d v c)) s = .next t ∧
      t.dffs = s.dffs.set d { committed := us.getLastD f.pending, pending := u } ∧ t.clocks = s.clocks

/-- R102: with one input per `Tick`, starting fresh, after the cycles of `vs = v_1 … v_n`: in the next `Tick`, `output` is
`v_(n-1)` before the input and `v_n` after it, and in the `Tock` that follows it is the value just given (`v_0 = v_(-1) = O`). -/
def Obligations.OneInputPerTickDelaysByOneCycle : Prop :=
  ∀ (s : State) (d : Nat) (c : Nat) (vs : List Bit) (v : Bit),
    s.dffs[d]? = some ⟨O, O⟩ → s.clocks[c]? = some .tick →
    outputs (vs.flatMap (cycle d c) ++ [.dffOutput d c]) s = (O :: O :: vs)[vs.length]?.map Value.bit ∧
    outputs (vs.flatMap (cycle d c) ++ [.dffInput d v c, .dffOutput d c]) s = (O :: O :: vs)[vs.length + 1]?.map Value.bit ∧
    outputs (vs.flatMap (cycle d c) ++ [.dffInput d v c, .clockNext c, .dffOutput d c]) s = some (.bit v)

/-- R17, R96, R118: only `DFF.input` on a DFF changes that DFF; `Clock.next` commits nothing. -/
def Obligations.OnlyInputChangesADff : Prop :=
  ∀ (i : Instr) (s t : State) (d : Nat), exec i s = .next t → d < s.dffs.length →
    (∀ v c, i ≠ .dffInput d v c) → t.dffs[d]? = s.dffs[d]?

/-- R16: only `Clock.next` on a Clock changes that Clock. -/
def Obligations.OnlyNextChangesAClock : Prop :=
  ∀ (i : Instr) (s t : State) (c : Nat), exec i s = .next t → c < s.clocks.length →
    i ≠ .clockNext c → t.clocks[c]? = s.clocks[c]?

/-- R22: during `Tick` the field `pending`, and during `Tock` the field `committed`, has no effect on what `output` returns. -/
def Obligations.TheHiddenFieldIsNotObserved : Prop :=
  ∀ (s : State) (d : Nat) (c : Nat) (f : Dff) (b : Bit), s.dffs[d]? = some f →
    (s.clocks[c]? = some .tick →
      outputs [.dffOutput d c] { s with dffs := s.dffs.set d { f with pending := b } } = outputs [.dffOutput d c] s) ∧
    (s.clocks[c]? = some .tock →
      outputs [.dffOutput d c] { s with dffs := s.dffs.set d { f with committed := b } } = outputs [.dffOutput d c] s)

/-- R30, rule 2: operations on different instances commute, `input` and `output` counting the Clock they are passed as read (R28). Two
state-changing operations give the same state in either order. A pure read before another operation leaves that operation's answer as
it is, and an operation on another instance leaves what the read returns as it is. A creation
commutes with the others but for the outputs of the last operation, which `forgetOut` drops (log entry 3). -/
def Obligations.OperationsOnDifferentInstancesCommute : Prop :=
  ∀ (s : State) (d d' : Nat) (c c' : Nat) (v v' : Bit),
    d < s.dffs.length → d' < s.dffs.length → c < s.clocks.length → c' < s.clocks.length →
    (d ≠ d' → runAll [.dffInput d v c, .dffInput d' v' c'] s = runAll [.dffInput d' v' c', .dffInput d v c] s) ∧
    (c ≠ c' → runAll [.clockNext c, .clockNext c'] s = runAll [.clockNext c', .clockNext c] s) ∧
    (c ≠ c' → runAll [.clockNext c, .dffInput d v c'] s = runAll [.dffInput d v c', .clockNext c] s) ∧
    (∀ r ∈ [Instr.clockPhase c, Instr.dffOutput d c],
      runAll [r, .clockNext c'] s = runAll [.clockNext c'] s ∧ runAll [r, .dffInput d' v' c'] s = runAll [.dffInput d' v' c'] s ∧
      runAll [r, .clockNew] s = runAll [.clockNew] s ∧ runAll [r, .dffNew] s = runAll [.dffNew] s ∧
      outputs [.clockPhase c', r] s = outputs [r] s ∧ outputs [.dffOutput d' c', r] s = outputs [r] s ∧
      (c ≠ c' → outputs [.clockNext c', r] s = outputs [r] s) ∧
      (s.clocks.length < s.config.numClocks → outputs [.clockNew, r] s = outputs [r] s) ∧
      (s.dffs.length < s.config.numDffs → outputs [.dffNew, r] s = outputs [r] s)) ∧
    outputs [.dffInput d' v' c', .clockPhase c] s = outputs [.clockPhase c] s ∧
    (d ≠ d' → outputs [.dffInput d' v' c', .dffOutput d c] s = outputs [.dffOutput d c] s) ∧
    (∀ i ∈ [Instr.clockNext c, Instr.dffInput d v c], ∀ n ∈ [Instr.clockNew, Instr.dffNew],
      forgetOut (runAll [n, i] s) = forgetOut (runAll [i, n] s)) ∧
    (s.clocks.length < s.config.numClocks → s.dffs.length < s.config.numDffs →
      forgetOut (runAll [.clockNew, .dffNew] s) = forgetOut (runAll [.dffNew, .clockNew] s))

/-- Log entry 6 (the model's choice): an operation on an instance that was not created is refused by name. -/
def Obligations.MissingInstancesAreRefused : Prop :=
  ∀ (s : State) (d : Nat) (c : Nat) (v : Bit),
    (s.clocks.length ≤ c →
      exec (.clockNext c) s = .refused (.noSuchClock c) ∧ exec (.clockPhase c) s = .refused (.noSuchClock c)) ∧
    (s.dffs.length ≤ d →
      exec (.dffInput d v c) s = .refused (.noSuchDff d) ∧ exec (.dffOutput d c) s = .refused (.noSuchDff d)) ∧
    (d < s.dffs.length → s.clocks.length ≤ c →
      exec (.dffInput d v c) s = .refused (.noSuchClock c) ∧ exec (.dffOutput d c) s = .refused (.noSuchClock c))

/-! Whole-machine rules. -/

/-- R104: no core operation raises a fault, and none touches the fault record. -/
def Obligations.NoInstructionFaults : Prop :=
  ∀ (i : Instr) (s : State), (∀ r, exec i s ≠ .fault r) ∧ ∀ t, exec i s = .next t → t.fault = s.fault

/-- R13, R34: no instruction changes the driver's program, its names or the bounds. -/
def Obligations.NoInstructionChangesTheDriver : Prop :=
  ∀ (i : Instr) (s t : State), exec i s = .next t → t.program = s.program ∧ t.env = s.env ∧ t.config = s.config

/-- R24: instances persist: no step destroys one or changes the bounds. -/
def Obligations.InstancesPersist : Prop :=
  ∀ s t : State, step s = .next t →
    s.clocks.length ≤ t.clocks.length ∧ s.dffs.length ≤ t.dffs.length ∧ t.config = s.config

/-- R105: the step that faults changes no Clock or DFF, and the fault state takes no further step. Log entry 10: the faulting operation
is a step to a next state that holds the record. -/
def Obligations.AFaultIsPreciseAndTerminal : Prop :=
  (∀ s t : State, step s = .next t → t.fault ≠ none → t.clocks = s.clocks ∧ t.dffs = s.dffs) ∧
  (∀ (s : State) (causes : List FaultReason), s.fault = some causes → step s = .fault (.halted causes))

/-- Every step keeps the invariant: the counts respect the bounds, the fault record is one the spec allows, and every instance
the driver holds exists (R5, R24, R103, R107, D18; the driver's names and the last outputs stand in State by log entries 3 and 4). -/
def Obligations.EveryStepKeepsTheInvariant : Prop :=
  ∀ s t : State, Inv s → step s = .next t → Inv t

/-- The empty machine meets the invariant, for every bound. -/
def Obligations.ResetMeetsTheInvariant : Prop :=
  ∀ cfg : Config, Inv (State.resetWith cfg)

/-- R113, R114: a run begins with no instances, no fault recorded and nothing in flight. -/
def Obligations.ARunBeginsEmpty : Prop :=
  State.reset.clocks = [] ∧ State.reset.dffs = [] ∧ State.reset.fault = none ∧ State.reset.program = .nil

/-! The driver (R14, R15, R43, R44, R103, R107). That its program, its names and the last outputs stand in State is the model's choice
(log entries 2, 3 and 4). -/

/-- R30, R44: when the driver's next statement is an encoded operation that decodes to `i`, the step is `exec i` in the state whose
program is what follows (log entry 2). -/
def Obligations.AStepRunsTheDecodedInstruction : Prop :=
  ∀ (s : State) (e : Encoded) (rest : Prog) (i : Instr),
    s.fault = none → s.program = .cons (.op e) rest → decode e = .ok i → step s = exec i { s with program := rest }

/-- The host's placement of a table word (log entries 2 and 9): the next step runs the instruction the word decodes to. -/
def Obligations.APlacedTableWordRunsNext : Prop :=
  ∀ (s : State) (nbits w : Nat) (i : Instr), s.fault = none → decodeTableWord nbits w = some i →
    step (s.withFetchWord nbits w) = exec i s

/-- R44: the statements `clock`, `dff`, `next` and `input` issue their operation; a creation binds its name to the new instance,
numbered in order of creation, and leaves every other name as it was (log entries 2, 4, 7 and 21). -/
def Obligations.StatementsIssueTheirOperations : Prop :=
  ∀ (s : State) (rest : Prog) (n m : Name) (c : Nat) (d : Nat) (e : Expr) (b : Bit), s.fault = none →
    (s.program = .cons (.clock n) rest → s.clocks.length < s.config.numClocks →
      ∃ t, step s = .next t ∧ binds n (.clock s.clocks.length) s t ∧
        t = State.bind { s with program := rest, clocks := s.clocks ++ [.tick], out := .clock s.clocks.length }
          n (.clock s.clocks.length)) ∧
    (s.program = .cons (.dff n) rest → s.dffs.length < s.config.numDffs →
      ∃ t, step s = .next t ∧ binds n (.dff s.dffs.length) s t ∧
        t = State.bind { s with program := rest, dffs := s.dffs ++ [⟨O, O⟩], out := .dff s.dffs.length }
          n (.dff s.dffs.length)) ∧
    (s.program = .cons (.next n) rest → s.value? n = some (.clock c) →
      step s = exec (.clockNext c) { s with program := rest }) ∧
    (s.program = .cons (.input m e n) rest → s.value? m = some (.dff d) → s.value? n = some (.clock c) →
      evalBit { s with program := rest } e = .ok b → step s = exec (.dffInput d b c) { s with program := rest })

/-- R44: `let name = Component(arguments)` runs the component on its arguments and binds the name to its outputs;
every other name stays as it was (log entries 2, 3 and 4). -/
def Obligations.LetBindsAComponentsOutputs : Prop :=
  ∀ (s t : State) (rest : Prog) (n : Name) (row : Nat) (args : Args) (bss : List (List Bit)) (sh : RowShape) (i : Instr),
    s.fault = none → s.program = .cons (.letE n (.call row args)) rest →
    evalArgs { s with program := rest } args = .ok bss → row < 84 → rowShape row = some sh → bss.map List.length = sh.ports →
    decode ⟨row, [], bss.flatten⟩ = .ok i → exec i { s with program := rest } = .next t →
    step s = .next (t.bind n t.out) ∧ binds n t.out s (t.bind n t.out)

/-- R43, R107: building a Word from a string of tokens: token `k` becomes `w[k]`; a wrong count and a bad token fault, and every cause
that applies is recorded, with the count and the first bad position (D11, D12, D19; log entries 2, 4 and 10). -/
def Obligations.AWordLiteralIsReadOrFaults : Prop :=
  ∀ (s : State) (rest : Prog) (n : Name) (ts : List Token),
    s.fault = none → s.program = .cons (.letE n (.tokens ts)) rest →
    (ts.length = 16 → Token.other ∉ ts →
      ∃ w : Word, (∀ k, k < 16 → (bit w k = I ↔ ts[k]? = some .one)) ∧
        step s = .next (State.bind { s with program := rest, out := .word w } n (.word w))) ∧
    (ts.length ≠ 16 → Token.other ∉ ts →
      step s = .next { s with program := rest, fault := some [.malformedWordLength ts.length] }) ∧
    (∀ k, ts[k]? = some .other → Token.other ∉ ts.take k → ts.length = 16 →
      step s = .next { s with program := rest, fault := some [.malformedWordToken k] }) ∧
    (∀ k, ts[k]? = some .other → Token.other ∉ ts.take k → ts.length ≠ 16 →
      step s = .next { s with program := rest, fault := some [.malformedWordLength ts.length, .malformedWordToken k] })

/-- R14: building a Bit from a number fails unless the value is exactly 0 or 1; the number is recorded (D11; log entries 2,
4 and 10). -/
def Obligations.ABitFromANumberIsReadOrFaults : Prop :=
  ∀ (s : State) (rest : Prog) (n : Name) (k : Int),
    s.fault = none → s.program = .cons (.letE n (.number k)) rest →
    (k = 0 → step s = .next (State.bind { s with program := rest, out := .bit O } n (.bit O))) ∧
    (k = 1 → step s = .next (State.bind { s with program := rest, out := .bit I } n (.bit I))) ∧
    (k ≠ 0 → k ≠ 1 → step s = .next { s with program := rest, fault := some [.bitValueOutOfRange k] })

/-- R15, R26: reading a Word at an index from 0 to 15 gives that Bit; any other index faults and is recorded (D11, D23; log
entries 2, 4 and 10). -/
def Obligations.AnIndexOutsideAWordFaults : Prop :=
  ∀ (s : State) (rest : Prog) (n : Name) (e : Expr) (w : Word) (i : Nat),
    s.fault = none → s.program = .cons (.letE n (.index e i)) rest → eval { s with program := rest } e = .ok (.word w) →
    (i ≤ 15 → step s = .next (State.bind { s with program := rest, out := .bit (bit w i) } n (.bit (bit w i)))) ∧
    (16 ≤ i → step s = .next { s with program := rest, fault := some [.indexOutOfRange i] })

/-- R44: `repeat n` runs `n` copies of its body, and `if` chooses on a Bit; neither changes anything but what runs next
(log entry 2). -/
def Obligations.RepeatAndIfChooseWhatRunsNext : Prop :=
  ∀ (s : State) (rest body yes no : Prog) (k : Nat) (e : Expr), s.fault = none →
    (s.program = .cons (.loop 0 body) rest → step s = .next { s with program := rest }) ∧
    (s.program = .cons (.loop (k + 1) body) rest →
      step s = .next { s with program := appendProg body (.cons (.loop k body) rest) }) ∧
    (s.program = .cons (.ifElse e yes no) rest → evalBit { s with program := rest } e = .ok I →
      step s = .next { s with program := appendProg yes rest }) ∧
    (s.program = .cons (.ifElse e yes no) rest → evalBit { s with program := rest } e = .ok O →
      step s = .next { s with program := appendProg no rest })

/-- R44: `output16 R, C` is the Word whose index `k` is `output R[k], C` (log entries 4 and 13). -/
def Obligations.Output16ReadsSixteenDffs : Prop :=
  ∀ (s : State) (r : Nat) (c : Name) (c' : Nat) (p : Phase) (ids : List Nat) (fs : List Dff),
    s.value? c = some (.clock c') → s.clocks[c']? = some p → ids.length = 16 → fs.length = 16 →
    (∀ k : Nat, k < 16 → s.value? (.elem r k) = ids[k]?.map Value.dff) →
    (∀ (k : Nat) (d : Nat), ids[k]? = some d → s.dffs[d]? = fs[k]?) →
    ∃ w : Word, eval s (output16 r c) = .ok (.word w) ∧ ∀ (k : Nat) (f : Dff), fs[k]? = some f → bit w k = dffVisible p f

/-- Log entry 8 (the model's choice): with no statement left the machine stays as it is. -/
def Obligations.AnEmptyProgramChangesNothing : Prop :=
  ∀ s : State, s.fault = none → s.program = .nil → step s = .next s

/-! Encoding (R35 to R41, R44). -/

/-- R39, R44: decoding an instruction's encoding gives the instruction back, for every instruction and every operand. -/
def Obligations.DecodeUndoesEncode : Prop :=
  ∀ i : Instr, decode (encode i) = .ok i

/-- R39 to R41: an encoded operation that decodes is the encoding of what it decodes to: no Bit is ignored. -/
def Obligations.EncodeUndoesDecode : Prop :=
  ∀ (e : Encoded) (i : Instr), decode e = .ok i → encode i = e

/-- R37, R39 to R41, R61: exactly the well-formed operations decode; a block that is no row is refused by name, and so is a port
vector of another length. -/
def Obligations.ExactlyWellFormedOperationsDecode : Prop :=
  ∀ e : Encoded,
    ((∃ i, decode e = .ok i) ↔ e.wellFormed = true) ∧
    (90 ≤ e.row → decode e = .error (.unknownBlock e.row)) ∧
    (∀ sh, rowShape e.row = some sh → e.refs.length = sh.refs → e.ports.length ≠ sh.ports.sum →
      decode e = .error (.portCount e.row sh.ports.sum e.ports.length))

/-- R39: the port vector of every component, its ports in the order listed and each Word from index 0 to index 15, and of every
event, its DFF before its Clock. Port names and order are the spec's decision D4; the row numbers are log entry 5. -/
def Obligations.PortVectorsFollowTheTable : Prop :=
  ∀ (a b c sel sel0 sel1 sel2 i0 i1 i2 i3 i4 i5 i6 i7 : Bit) (w0 w1 w2 w3 w4 w5 w6 w7 : Word) (d k : Nat),
    let word16 := fun w : Word => [bit w 0, bit w 1, bit w 2, bit w 3, bit w 4, bit w 5, bit w 6, bit w 7,
      bit w 8, bit w 9, bit w 10, bit w 11, bit w 12, bit w 13, bit w 14, bit w 15]
    decode ⟨64, [], [a, b]⟩ = .ok (.nand a b) ∧
    decode ⟨65, [], [a]⟩ = .ok (.not a) ∧
    decode ⟨66, [], [a, b]⟩ = .ok (.and a b) ∧
    decode ⟨67, [], [a, b]⟩ = .ok (.or a b) ∧
    decode ⟨68, [], [a, b]⟩ = .ok (.xor a b) ∧
    decode ⟨69, [], [a, b, sel]⟩ = .ok (.mux a b sel) ∧
    decode ⟨70, [], [a, sel]⟩ = .ok (.dMux a sel) ∧
    decode ⟨71, [], word16 w0⟩ = .ok (.not16 w0) ∧
    decode ⟨72, [], word16 w0 ++ word16 w1⟩ = .ok (.and16 w0 w1) ∧
    decode ⟨73, [], word16 w0 ++ word16 w1⟩ = .ok (.or16 w0 w1) ∧
    decode ⟨74, [], word16 w0 ++ word16 w1 ++ [sel]⟩ = .ok (.mux16 w0 w1 sel) ∧
    decode ⟨75, [], [i0, i1, i2, i3, i4, i5, i6, i7]⟩ = .ok (.or8Way i0 i1 i2 i3 i4 i5 i6 i7) ∧
    decode ⟨76, [], word16 w0 ++ word16 w1 ++ word16 w2 ++ word16 w3 ++ [sel0, sel1]⟩ = .ok (.mux4Way16 w0 w1 w2 w3 sel0 sel1) ∧
    decode ⟨77, [], word16 w0 ++ word16 w1 ++ word16 w2 ++ word16 w3 ++ word16 w4 ++ word16 w5 ++ word16 w6 ++ word16 w7 ++
      [sel0, sel1, sel2]⟩ = .ok (.mux8Way16 w0 w1 w2 w3 w4 w5 w6 w7 sel0 sel1 sel2) ∧
    decode ⟨78, [], [a, sel0, sel1]⟩ = .ok (.dMux4Way a sel0 sel1) ∧
    decode ⟨79, [], [a, sel0, sel1, sel2]⟩ = .ok (.dMux8Way a sel0 sel1 sel2) ∧
    decode ⟨80, [], [a, b]⟩ = .ok (.halfAdder a b) ∧
    decode ⟨81, [], [a, b, c]⟩ = .ok (.fullAdder a b c) ∧
    decode ⟨82, [], word16 w0 ++ word16 w1⟩ = .ok (.add16 w0 w1) ∧
    decode ⟨83, [], word16 w0⟩ = .ok (.inc16 w0) ∧
    decode ⟨84, [], []⟩ = .ok .clockNew ∧ decode ⟨85, [k], []⟩ = .ok (.clockNext k) ∧
    decode ⟨86, [k], []⟩ = .ok (.clockPhase k) ∧ decode ⟨87, [], []⟩ = .ok .dffNew ∧
    decode ⟨88, [d, k], [a]⟩ = .ok (.dffInput d a k) ∧ decode ⟨89, [d, k], []⟩ = .ok (.dffOutput d k)

/-- R42: the code `zx nx zy ny f no` of each of the 18 canonical operations, for all operands. The spec gives
sixteen of the codes from general knowledge (D9, log entry 14). -/
def Obligations.CanonicalOperationsHaveTheirCodes : Prop :=
  ∀ x y : Word,
    decode ⟨aluCode I O I O I O, [], wordBits x ++ wordBits y⟩ = .ok (.aluZero x y) ∧
    decode ⟨aluCode I I I I I I, [], wordBits x ++ wordBits y⟩ = .ok (.aluOne x y) ∧
    decode ⟨aluCode I I I O I O, [], wordBits x ++ wordBits y⟩ = .ok (.aluNegOne x y) ∧
    decode ⟨aluCode O O I I O O, [], wordBits x ++ wordBits y⟩ = .ok (.aluX x y) ∧
    decode ⟨aluCode I I O O O O, [], wordBits x ++ wordBits y⟩ = .ok (.aluY x y) ∧
    decode ⟨aluCode O O I I O I, [], wordBits x ++ wordBits y⟩ = .ok (.aluNotX x y) ∧
    decode ⟨aluCode I I O O O I, [], wordBits x ++ wordBits y⟩ = .ok (.aluNotY x y) ∧
    decode ⟨aluCode O O I I I I, [], wordBits x ++ wordBits y⟩ = .ok (.aluNegX x y) ∧
    decode ⟨aluCode I I O O I I, [], wordBits x ++ wordBits y⟩ = .ok (.aluNegY x y) ∧
    decode ⟨aluCode O I I I I I, [], wordBits x ++ wordBits y⟩ = .ok (.aluXPlus1 x y) ∧
    decode ⟨aluCode I I O I I I, [], wordBits x ++ wordBits y⟩ = .ok (.aluYPlus1 x y) ∧
    decode ⟨aluCode O O I I I O, [], wordBits x ++ wordBits y⟩ = .ok (.aluXMinus1 x y) ∧
    decode ⟨aluCode I I O O I O, [], wordBits x ++ wordBits y⟩ = .ok (.aluYMinus1 x y) ∧
    decode ⟨aluCode O O O O I O, [], wordBits x ++ wordBits y⟩ = .ok (.aluXPlusY x y) ∧
    decode ⟨aluCode O I O O I I, [], wordBits x ++ wordBits y⟩ = .ok (.aluXMinusY x y) ∧
    decode ⟨aluCode O O O I I I, [], wordBits x ++ wordBits y⟩ = .ok (.aluYMinusX x y) ∧
    decode ⟨aluCode O O O O O O, [], wordBits x ++ wordBits y⟩ = .ok (.aluXAndY x y) ∧
    decode ⟨aluCode O I O I O I, [], wordBits x ++ wordBits y⟩ = .ok (.aluXOrY x y)

/-- R36, R39, R42: sample words. The port vectors are the spec's: `Nand` with `10`, `Mux` with `abs = 011`, `DMux8Way` with
`isss = 1101`, `HalfAdder` with `ab = 01`, `DFF.input` with `v = 1`. The rest is the model's choice or from outside the source: the row numbers
64, 69, 79, 80 and 88 are log entry 5, the layout of a table word and its operands 0 are log entry 9, and the codes `000010` of `x+y` and
`111010` of `-1` are the spec's general knowledge (D9, log entry 14). -/
def Obligations.SampleWordsDecode : Prop :=
  decodeTableWord 8 2 = some (.aluXPlusY 0 0) ∧ decodeTableWord 8 58 = some (.aluNegOne 0 0) ∧
  decode ⟨64, [], [I, O]⟩ = .ok (.nand I O) ∧ decode ⟨69, [], [O, I, I]⟩ = .ok (.mux O I I) ∧
  decode ⟨79, [], [I, I, O, I]⟩ = .ok (.dMux8Way I I O I) ∧ decode ⟨80, [], [O, I]⟩ = .ok (.halfAdder O I) ∧
  decode ⟨88, [3, 1], [I]⟩ = .ok (.dffInput 3 I 1)

/-! Names and ports of the driver (R44). -/

/-- Log entry 4: a bound name stands for its value until it is bound again, every other name for what it stood for, and binding
changes nothing else. It says what `State.bind` does in every statement that names it. -/
def Obligations.ABoundNameStandsForItsValue : Prop :=
  ∀ (s : State) (n : Name) (v : Value),
    binds n v s (s.bind n v) ∧ s.bind n v = { s with env := (s.bind n v).env }

/-- R39, R44: `name '.' port` is that output port of what the name stands for, for every component and for `Clock.phase` and `DFF.output`;
a port the result lacks is refused (log entry 6). That `out` gives a Bit or Word also where it is no component's result is the model's
choice (log entry 20). -/
def Obligations.APortSelectsAnOutput : Prop :=
  ∀ (s : State) (n : Name) (b : Bit) (w : Word) (carry sum zr ng : Bit) (outs : List Bit) (k : Nat) (p : Phase),
    (s.value? n = some (.bit b) → eval s (.port (.name n) .out) = .ok (.bit b)) ∧
    (s.value? n = some (.word w) → eval s (.port (.name n) .out) = .ok (.word w)) ∧
    (s.value? n = some (.alu w zr ng) → eval s (.port (.name n) .out) = .ok (.word w) ∧
      eval s (.port (.name n) .zr) = .ok (.bit zr) ∧ eval s (.port (.name n) .ng) = .ok (.bit ng)) ∧
    (s.value? n = some (.carrySum carry sum) → eval s (.port (.name n) .carry) = .ok (.bit carry) ∧
      eval s (.port (.name n) .sum) = .ok (.bit sum)) ∧
    (s.value? n = some (.phase p) → eval s (.port (.name n) .phase) = .ok (.phase p)) ∧
    (s.value? n = some (.demux outs) → (outs[k]? = some b → eval s (.port (.name n) (.outAt k)) = .ok (.bit b)) ∧
      (outs.length ≤ k → eval s (.port (.name n) (.outAt k)) = .error (.refused .wrongKind)))
end

