-- ==== Sys2Proof/Laws/Bits.lean ====
section
/-! SUPPORT. Words as sequences of Bits: lanes, port Words and the numeric views. -/

namespace Sys2Proof.Machine

/-- The binary digits of a number read from Bits: the last Bit has weight 1. -/
theorem testBit_foldl (bs : List Bit) (acc j : Nat) :
    (bs.foldl (fun n b => 2 * n + b.toNat) acc).testBit j =
      if h : j < bs.length then bs[bs.length - 1 - j] else acc.testBit (j - bs.length) := by
  induction bs generalizing acc with
  | nil => simp
  | cons b bs ih =>
    rw [List.foldl_cons, ih]
    by_cases h : j < bs.length
    · have h' : j < (b :: bs).length := by simp; omega
      have e : (b :: bs).length - 1 - j = (bs.length - 1 - j) + 1 := by simp; omega
      simp only [h, h', dite_true, e, List.getElem_cons_succ]
    · by_cases hj : j = bs.length
      · subst hj
        cases b <;> simp
      · have h' : ¬ j < (b :: bs).length := by simp; omega
        have e : j - bs.length = (j - (b :: bs).length) + 1 := by simp; omega
        simp only [h, h', dite_false, e]
        have hd : (2 * acc + b.toNat) / 2 = acc := by
          have := b.toNat_lt
          omega
        rw [Nat.testBit_succ, hd]

/-- Index `i` of the Word built from 16 Bits is the `i`-th of them (R7). -/
theorem bit_wordOfBits (bs : List Bit) (h : bs.length = 16) (i : Nat) (hi : i < 16) :
    bit (wordOfBits bs) i = bs[i] := by
  have hj : 16 - 1 - i < bs.length := by omega
  have e : bs.length - 1 - (16 - 1 - i) = i := by omega
  simp only [bit, wordOfBits, BitVec.getMsbD, BitVec.getLsbD_ofNat, bitsVal, testBit_foldl, hj, dite_true, e]
  simp [hi, show 16 - 1 - i < 16 by omega]

/-- Lane `i` of a Word built lane by lane (R52 to R55). -/
theorem bit_lanes (f : Nat → Bit) (i : Nat) (hi : i < 16) : bit (lanes f) i = f i := by
  unfold lanes
  rw [bit_wordOfBits _ (by simp) i hi]
  simp

/-- Two Words with the same 16 Bits are the same Word. -/
theorem word_ext {a b : Word} (h : ∀ i, i < 16 → bit a i = bit b i) : a = b :=
  BitVec.eq_of_getMsbD_eq h

@[simp] theorem wordBits_length (w : Word) : (wordBits w).length = 16 := by simp [wordBits]

@[simp] theorem wordBits_getElem (w : Word) (i : Nat) (h : i < (wordBits w).length) : (wordBits w)[i] = bit w i := by
  simp [wordBits]

/-- Building a Word from its own Bits gives it back. -/
@[simp] theorem wordOfBits_wordBits (w : Word) : wordOfBits (wordBits w) = w := by
  apply word_ext
  intro i hi
  rw [bit_wordOfBits _ (by simp) i hi]
  simp

/-- The Bits of a Word built from 16 Bits are those Bits. -/
theorem wordBits_wordOfBits (bs : List Bit) (h : bs.length = 16) : wordBits (wordOfBits bs) = bs := by
  apply List.ext_getElem
  · simp [h]
  · intro i h1 h2
    rw [wordBits_getElem, bit_wordOfBits _ h i (by omega)]

/-- The sign Bit is index 0 (R7). -/
theorem bit_zero_eq_msb (w : Word) : bit w 0 = w.msb := by
  simp [bit, BitVec.msb]

/-- The two's-complement view is the bit vector's (R7). -/
theorem sval_eq_toInt (w : Word) : sval w = w.toInt := by
  rw [sval, bit_zero_eq_msb, BitVec.toInt_eq_msb_cond]
  cases w.msb <;> simp [uval]

/-- `word n` has the unsigned view `n mod 65536` (R7). -/
theorem uval_word (n : Int) : (uval (word n) : Int) = n % 65536 := by
  simp [uval, word, BitVec.toNat_ofInt]
  omega

/-- `word` turns integer arithmetic into Word arithmetic modulo 2^16 (R7). -/
theorem word_add (m n : Int) : word (m + n) = word m + word n := BitVec.ofInt_add ..

theorem word_neg (n : Int) : word (-n) = -word n := BitVec.ofInt_neg

theorem word_sub (m n : Int) : word (m - n) = word m - word n := by
  rw [Int.sub_eq_add_neg, word_add, word_neg, BitVec.sub_eq_add_neg]

theorem word_uval (w : Word) : word (uval w) = w := by
  simp [word, uval]

theorem word_sval (w : Word) : word (sval w) = w := by
  simp [word, sval_eq_toInt]

end Sys2Proof.Machine
end

