-- ==== Sys2Proof/Laws/Decode.lean ====
section
/-! SUPPORT. Decoding: the row an instruction is decoded from, and the shape its operands have. -/

namespace Sys2Proof

open Machine

/-- The ALU instruction of a code has that code as its row (R36). -/
theorem aluInstr_row {x y : Word} {code : Nat} {i : Instr} (h : aluInstr x y code = some i) : (encode i).row = code := by
  unfold aluInstr at h
  split at h
  · unfold aluInstrLow at h
    split at h <;> first | (cases h; rfl) | cases h
  · unfold aluInstrHigh at h
    split at h <;> first | (cases h; rfl) | cases h

theorem componentInstr_row {ports : List Bit} {row : Nat} {i : Instr} (h : componentInstr ports row = some i) :
    (encode i).row = row := by
  unfold componentInstr at h
  split at h <;> first | (cases h; rfl) | cases h

theorem eventInstr_row {refs : List Nat} {ports : List Bit} {row : Nat} {i : Instr} (h : eventInstr refs ports row = some i) :
    (encode i).row = row := by
  unfold eventInstr at h
  split at h <;> first | (cases h; rfl) | cases h

theorem buildInstr_row {row : Nat} {refs : List Nat} {ports : List Bit} {i : Instr} (h : buildInstr row refs ports = some i) :
    (encode i).row = row := by
  unfold buildInstr at h
  split at h
  · exact aluInstr_row h
  · split at h
    · exact componentInstr_row h
    · exact eventInstr_row h

/-- What it takes to decode: a row of the table, and operands of its shape. -/
theorem decode_ok {e : Encoded} {i : Instr} (h : decode e = .ok i) :
    ∃ sh, rowShape e.row = some sh ∧ e.refs.length = sh.refs ∧ e.ports.length = sh.ports.sum ∧
      buildInstr e.row e.refs e.ports = some i := by
  unfold decode at h
  split at h
  · cases h
  · split at h
    · cases h
    · split at h
      · cases h
      · split at h
        · cases h
          exact ⟨_, ‹_›, by simpa using ‹¬ e.refs.length ≠ _›, by simpa using ‹¬ e.ports.length ≠ _›, ‹_›⟩
        · cases h

/-- A decoded instruction's row is the encoded operation's. -/
theorem decode_row {e : Encoded} {i : Instr} (h : decode e = .ok i) : (encode i).row = e.row := by
  obtain ⟨sh, -, -, -, hb⟩ := decode_ok h
  exact buildInstr_row hb

/-- The Word port at the front of a port vector. -/
theorem portWord_append (w : Word) (bs : List Bit) : portWord (wordBits w ++ bs) 0 = w := by
  rw [portWord, List.drop_zero, List.take_left' (wordBits_length w), wordOfBits_wordBits]

/-- Past a Word port, the next port starts 16 Bits on. -/
theorem portWord_skip (w : Word) (bs : List Bit) (k : Nat) : portWord (wordBits w ++ bs) (k + 16) = portWord bs k := by
  have h : (wordBits w ++ bs).drop (k + 16) = bs.drop k := by
    rw [List.drop_append, List.drop_eq_nil_of_le (by simp), wordBits_length, Nat.add_sub_cancel, List.nil_append]
  rw [portWord, portWord, h]

/-- The last Word port of a port vector. -/
theorem portWord_last (w : Word) : portWord (wordBits w) 0 = w := by
  rw [portWord, List.drop_zero, List.take_of_length_le (by simp), wordOfBits_wordBits]

theorem portBit_skip (w : Word) (bs : List Bit) (k : Nat) : portBit (wordBits w ++ bs) (k + 16) = portBit bs k := by
  rw [portBit, portBit, List.getD_eq_getElem?_getD, List.getElem?_append_right (by simp), wordBits_length, Nat.add_sub_cancel,
    List.getD_eq_getElem?_getD]

/-- A port vector of at least 16 Bits is a Word port and the rest. -/
theorem exists_wordBits_append {ports : List Bit} (h : 16 ≤ ports.length) :
    ∃ (w : Word) (rest : List Bit), ports = wordBits w ++ rest ∧ rest.length = ports.length - 16 := by
  refine ⟨wordOfBits (ports.take 16), ports.drop 16, ?_, by simp⟩
  rw [wordBits_wordOfBits _ (by simp; omega), List.take_append_drop]

/-- The ALU rows decode by their code alone (R36, R40). -/
theorem decode_alu {code : Nat} (h : code < aluRows) (x y : Word) {i : Instr} (hi : aluInstr x y code = some i) :
    decode ⟨code, [], wordBits x ++ wordBits y⟩ = .ok i := by
  have hx : portWord (wordBits x ++ wordBits y) 0 = x := portWord_append x _
  have hy : portWord (wordBits x ++ wordBits y) 16 = y := (portWord_skip x _ 0).trans (portWord_last y)
  simp [decode, rowShape, h, buildInstr, hx, hy, hi]

end Sys2Proof
end

