-- ==== Sys2Proof/Laws/State.lean ====
section
/-! SUPPORT. One lemma per field per update of the state, so that no proof unfolds a record update. -/

namespace Sys2Proof.Machine

@[simp] theorem State.setOut_clocks (s : State) (v : Value) : (s.setOut v).clocks = s.clocks := rfl
@[simp] theorem State.setOut_dffs (s : State) (v : Value) : (s.setOut v).dffs = s.dffs := rfl
@[simp] theorem State.setOut_fault (s : State) (v : Value) : (s.setOut v).fault = s.fault := rfl
@[simp] theorem State.setOut_config (s : State) (v : Value) : (s.setOut v).config = s.config := rfl
@[simp] theorem State.setOut_program (s : State) (v : Value) : (s.setOut v).program = s.program := rfl
@[simp] theorem State.setOut_env (s : State) (v : Value) : (s.setOut v).env = s.env := rfl
@[simp] theorem State.setOut_out (s : State) (v : Value) : (s.setOut v).out = v := rfl

@[simp] theorem State.addClock_clocks (s : State) : (s.addClock).clocks = s.clocks ++ [newPhase] := rfl
@[simp] theorem State.addClock_dffs (s : State) : (s.addClock).dffs = s.dffs := rfl
@[simp] theorem State.addClock_fault (s : State) : (s.addClock).fault = s.fault := rfl
@[simp] theorem State.addClock_config (s : State) : (s.addClock).config = s.config := rfl
@[simp] theorem State.addClock_program (s : State) : (s.addClock).program = s.program := rfl
@[simp] theorem State.addClock_env (s : State) : (s.addClock).env = s.env := rfl
@[simp] theorem State.addClock_out (s : State) : (s.addClock).out = s.out := rfl

@[simp] theorem State.setClock_clocks (s : State) (c : Nat) (p : Phase) : (s.setClock c p).clocks = s.clocks.set c p := rfl
@[simp] theorem State.setClock_dffs (s : State) (c : Nat) (p : Phase) : (s.setClock c p).dffs = s.dffs := rfl
@[simp] theorem State.setClock_fault (s : State) (c : Nat) (p : Phase) : (s.setClock c p).fault = s.fault := rfl
@[simp] theorem State.setClock_config (s : State) (c : Nat) (p : Phase) : (s.setClock c p).config = s.config := rfl
@[simp] theorem State.setClock_program (s : State) (c : Nat) (p : Phase) : (s.setClock c p).program = s.program := rfl
@[simp] theorem State.setClock_env (s : State) (c : Nat) (p : Phase) : (s.setClock c p).env = s.env := rfl
@[simp] theorem State.setClock_out (s : State) (c : Nat) (p : Phase) : (s.setClock c p).out = s.out := rfl

@[simp] theorem State.addDff_clocks (s : State) : (s.addDff).clocks = s.clocks := rfl
@[simp] theorem State.addDff_dffs (s : State) : (s.addDff).dffs = s.dffs ++ [newDff] := rfl
@[simp] theorem State.addDff_fault (s : State) : (s.addDff).fault = s.fault := rfl
@[simp] theorem State.addDff_config (s : State) : (s.addDff).config = s.config := rfl
@[simp] theorem State.addDff_program (s : State) : (s.addDff).program = s.program := rfl
@[simp] theorem State.addDff_env (s : State) : (s.addDff).env = s.env := rfl
@[simp] theorem State.addDff_out (s : State) : (s.addDff).out = s.out := rfl

@[simp] theorem State.setDff_clocks (s : State) (d : Nat) (f : Dff) : (s.setDff d f).clocks = s.clocks := rfl
@[simp] theorem State.setDff_dffs (s : State) (d : Nat) (f : Dff) : (s.setDff d f).dffs = s.dffs.set d f := rfl
@[simp] theorem State.setDff_fault (s : State) (d : Nat) (f : Dff) : (s.setDff d f).fault = s.fault := rfl
@[simp] theorem State.setDff_config (s : State) (d : Nat) (f : Dff) : (s.setDff d f).config = s.config := rfl
@[simp] theorem State.setDff_program (s : State) (d : Nat) (f : Dff) : (s.setDff d f).program = s.program := rfl
@[simp] theorem State.setDff_env (s : State) (d : Nat) (f : Dff) : (s.setDff d f).env = s.env := rfl
@[simp] theorem State.setDff_out (s : State) (d : Nat) (f : Dff) : (s.setDff d f).out = s.out := rfl

@[simp] theorem State.enterFault_clocks (s : State) (causes : List FaultReason) : (s.enterFault causes).clocks = s.clocks := rfl
@[simp] theorem State.enterFault_dffs (s : State) (causes : List FaultReason) : (s.enterFault causes).dffs = s.dffs := rfl
@[simp] theorem State.enterFault_fault (s : State) (causes : List FaultReason) : (s.enterFault causes).fault = some causes := rfl
@[simp] theorem State.enterFault_config (s : State) (causes : List FaultReason) : (s.enterFault causes).config = s.config := rfl
@[simp] theorem State.enterFault_program (s : State) (causes : List FaultReason) : (s.enterFault causes).program = s.program := rfl
@[simp] theorem State.enterFault_env (s : State) (causes : List FaultReason) : (s.enterFault causes).env = s.env := rfl
@[simp] theorem State.enterFault_out (s : State) (causes : List FaultReason) : (s.enterFault causes).out = s.out := rfl

@[simp] theorem State.setProgram_clocks (s : State) (p : Prog) : (s.setProgram p).clocks = s.clocks := rfl
@[simp] theorem State.setProgram_dffs (s : State) (p : Prog) : (s.setProgram p).dffs = s.dffs := rfl
@[simp] theorem State.setProgram_fault (s : State) (p : Prog) : (s.setProgram p).fault = s.fault := rfl
@[simp] theorem State.setProgram_config (s : State) (p : Prog) : (s.setProgram p).config = s.config := rfl
@[simp] theorem State.setProgram_program (s : State) (p : Prog) : (s.setProgram p).program = p := rfl
@[simp] theorem State.setProgram_env (s : State) (p : Prog) : (s.setProgram p).env = s.env := rfl
@[simp] theorem State.setProgram_out (s : State) (p : Prog) : (s.setProgram p).out = s.out := rfl

@[simp] theorem State.bind_clocks (s : State) (n : Name) (v : Value) : (s.bind n v).clocks = s.clocks := rfl
@[simp] theorem State.bind_dffs (s : State) (n : Name) (v : Value) : (s.bind n v).dffs = s.dffs := rfl
@[simp] theorem State.bind_fault (s : State) (n : Name) (v : Value) : (s.bind n v).fault = s.fault := rfl
@[simp] theorem State.bind_config (s : State) (n : Name) (v : Value) : (s.bind n v).config = s.config := rfl
@[simp] theorem State.bind_program (s : State) (n : Name) (v : Value) : (s.bind n v).program = s.program := rfl
@[simp] theorem State.bind_env (s : State) (n : Name) (v : Value) : (s.bind n v).env = (n, v) :: s.env.filter (fun b => b.1 ≠ n) := rfl
@[simp] theorem State.bind_out (s : State) (n : Name) (v : Value) : (s.bind n v).out = s.out := rfl

@[simp] theorem State.resetWith_clocks (cfg : Config) : (State.resetWith cfg).clocks = [] := rfl
@[simp] theorem State.resetWith_dffs (cfg : Config) : (State.resetWith cfg).dffs = [] := rfl
@[simp] theorem State.resetWith_fault (cfg : Config) : (State.resetWith cfg).fault = none := rfl
@[simp] theorem State.resetWith_config (cfg : Config) : (State.resetWith cfg).config = cfg := rfl
@[simp] theorem State.resetWith_program (cfg : Config) : (State.resetWith cfg).program = .nil := rfl
@[simp] theorem State.resetWith_env (cfg : Config) : (State.resetWith cfg).env = [] := rfl
@[simp] theorem State.resetWith_out (cfg : Config) : (State.resetWith cfg).out = .nothing := rfl

/-- Setting the outputs twice keeps the later ones. -/
@[simp] theorem State.setOut_setOut (s : State) (v w : Value) : (s.setOut v).setOut w = s.setOut w := rfl

/-- Putting the program back undoes `setProgram`. -/
@[simp] theorem State.setProgram_self (s : State) (p : Prog) : (s.setProgram p).setProgram s.program = s := rfl

/-- A name stands for what it was bound to last. -/
@[simp] theorem State.value?_bind_self (s : State) (n : Name) (v : Value) : (s.bind n v).value? n = some v := by
  simp [State.value?]

/-- Binding a name changes no other name. -/
theorem State.value?_bind_of_ne (s : State) (n m : Name) (v : Value) (h : m ≠ n) : (s.bind n v).value? m = s.value? m := by
  have hne : ¬ n = m := fun e => h e.symm
  have key : ∀ env : List (Name × Value),
      (env.filter (fun b => decide (b.1 ≠ n))).find? (fun b => decide (b.1 = m)) = env.find? (fun b => decide (b.1 = m)) := by
    intro env
    induction env with
    | nil => rfl
    | cons b bs ih =>
      by_cases hb : b.1 = n
      · have : ¬ b.1 = m := fun e => hne (hb.symm.trans e)
        simp_all
      · by_cases hm : b.1 = m <;> simp_all
  simp only [State.value?, State.bind_env, List.find?_cons, hne, decide_false]
  rw [key]

/-- What a name stands for is bound in the environment. -/
theorem State.value?_mem {s : State} {n : Name} {v : Value} (h : s.value? n = some v) : (n, v) ∈ s.env := by
  unfold State.value? at h
  cases hf : s.env.find? (fun b => b.1 = n) with
  | none => simp [hf] at h
  | some b =>
    have hn : b.1 = n := by simpa using List.find?_some hf
    have hv : b.2 = v := by simpa [hf] using h
    have hb := List.mem_of_find?_eq_some hf
    rwa [← hn, ← hv]

end Sys2Proof.Machine
end

