-- ==== Sys2Proof/Laws/Exec.lean ====
section
/-! SUPPORT. What one instruction can do, said once: completion of the shared operations, and the cases of `exec`. -/

namespace Sys2Proof.Machine

theorem withClock_eq {c : Nat} {s : State} {p : Phase} (h : s.clocks[c]? = some p) (k : Phase → Answer) :
    withClock c s k = k p := by
  simp [withClock, h]

theorem withDff_eq {d : Nat} {s : State} {f : Dff} (h : s.dffs[d]? = some f) (k : Dff → Answer) : withDff d s k = k f := by
  simp [withDff, h]

/-- `withClock` gives a next state only where the Clock exists. -/
theorem withClock_next {c : Nat} {s t : State} {k : Phase → Answer} (h : withClock c s k = .next t) :
    ∃ p, s.clocks[c]? = some p ∧ k p = .next t := by
  unfold withClock at h
  split at h
  · cases h
  · exact ⟨_, ‹_›, h⟩

/-- `withDff` gives a next state only where the DFF exists. -/
theorem withDff_next {d : Nat} {s t : State} {k : Dff → Answer} (h : withDff d s k = .next t) :
    ∃ f, s.dffs[d]? = some f ∧ k f = .next t := by
  unfold withDff at h
  split at h
  · cases h
  · exact ⟨_, ‹_›, h⟩

/-- `complete` always gives the state with the outputs set. -/
theorem complete_next {s t : State} {v : Value} (h : s.complete v = .next t) : t = s.setOut v := by
  cases h
  rfl

/-- The outputs hold no instance, so they refer to nothing that could be missing. -/
def RefFree (v : Value) : Prop := ∀ u : State, refsExist u v = true

/-- Everything one instruction can do to the state. -/
inductive ExecCase (i : Instr) (s t : State) : Prop where
  /-- A combinational component or a pure read: only the outputs change. -/
  | read (v : Value) (free : RefFree v) (eq : t = s.setOut v)
  /-- `Clock.new`. -/
  | newClock (instr : i = .clockNew) (room : s.clocks.length < s.config.numClocks)
      (eq : t = s.addClock.setOut (.clock s.clocks.length))
  /-- `Clock.next`. -/
  | tickClock (c : Nat) (p : Phase) (instr : i = .clockNext c) (old : s.clocks[c]? = some p)
      (eq : t = (s.setClock c (phaseNext p)).setOut .nothing)
  /-- `DFF.new`. -/
  | newDff (instr : i = .dffNew) (room : s.dffs.length < s.config.numDffs) (eq : t = s.addDff.setOut (.dff s.dffs.length))
  /-- `DFF.input`. -/
  | writeDff (d : Nat) (b : Bit) (c : Nat) (f : Dff) (p : Phase) (instr : i = .dffInput d b c)
      (old : s.dffs[d]? = some f) (phase : s.clocks[c]? = some p)
      (eq : t = (s.setDff d (dffAfterInput p b f)).setOut .nothing)

/-- A completed evaluation of a component is a read. -/
theorem execCase_complete {i : Instr} {s t : State} {v : Value} (free : RefFree v) (h : s.complete v = .next t) :
    ExecCase i s t :=
  .read v free (complete_next h)

theorem execCase_alu {i : Instr} {s t : State} {zx nx zy ny f no : Bit} {x y : Word}
    (h : execAlu zx nx zy ny f no x y s = .next t) : ExecCase i s t :=
  execCase_complete (fun _ => rfl) h

/-- What an instruction can do: one of five things. -/
theorem exec_cases {i : Instr} {s t : State} (h : exec i s = .next t) : ExecCase i s t := by
  cases i with
  | clockNew =>
    simp only [exec, execClockNew] at h
    split at h
    · exact .newClock rfl ‹_› (complete_next h)
    · cases h
  | clockNext c =>
    obtain ⟨p, hp, h⟩ := withClock_next h
    exact .tickClock c p rfl hp (complete_next h)
  | clockPhase c =>
    obtain ⟨p, -, h⟩ := withClock_next h
    exact execCase_complete (fun _ => rfl) h
  | dffNew =>
    simp only [exec, execDffNew] at h
    split at h
    · exact .newDff rfl ‹_› (complete_next h)
    · cases h
  | dffInput d b c =>
    obtain ⟨f, hf, h⟩ := withDff_next h
    obtain ⟨p, hp, h⟩ := withClock_next h
    exact .writeDff d b c f p rfl hf hp (complete_next h)
  | dffOutput d c =>
    obtain ⟨f, -, h⟩ := withDff_next h
    obtain ⟨p, -, h⟩ := withClock_next h
    exact execCase_complete (fun _ => rfl) h
  | _ => first | exact execCase_alu h | exact execCase_complete (fun _ => rfl) h

/-- No instruction ends in a fault (R104). -/
theorem withClock_ne_fault {c : Nat} {s : State} {k : Phase → Answer} {r : Fault} (hk : ∀ p, k p ≠ .fault r) :
    withClock c s k ≠ .fault r := by
  unfold withClock
  split
  · exact nofun
  · exact hk _

theorem withDff_ne_fault {d : Nat} {s : State} {k : Dff → Answer} {r : Fault} (hk : ∀ f, k f ≠ .fault r) :
    withDff d s k ≠ .fault r := by
  unfold withDff
  split
  · exact nofun
  · exact hk _

theorem complete_ne_fault (s : State) (v : Value) (r : Fault) : s.complete v ≠ .fault r := nofun

end Sys2Proof.Machine
end

