-- ==== Sys2Proof/Laws/Driver.lean ====
section
/-! SUPPORT. What the driver can do, said once: issuing an operation, evaluating an expression, running a statement, one step. -/

namespace Sys2Proof.Machine

/-- `issue` gives a next state only by running the decoded instruction. -/
theorem issue_next {e : Encoded} {s t : State} (h : issue e s = .next t) : ∃ i, decode e = .ok i ∧ exec i s = .next t := by
  unfold issue at h
  split at h
  · exact ⟨_, ‹_›, h⟩
  · cases h

/-- `issue` runs the decoded instruction. -/
theorem issue_eq {e : Encoded} {i : Instr} (h : decode e = .ok i) (s : State) : issue e s = exec i s := by
  simp [issue, h]

/-- No instruction ends in a fault (R104). -/
theorem exec_ne_fault (i : Instr) (s : State) (r : Fault) : exec i s ≠ .fault r := by
  cases i with
  | clockNew => simp only [exec, execClockNew]; split <;> exact nofun
  | dffNew => simp only [exec, execDffNew]; split <;> exact nofun
  | clockNext c => exact withClock_ne_fault (fun _ => complete_ne_fault _ _ r)
  | clockPhase c => exact withClock_ne_fault (fun _ => complete_ne_fault _ _ r)
  | dffInput d b c => exact withDff_ne_fault (fun _ => withClock_ne_fault (fun _ => complete_ne_fault _ _ r))
  | dffOutput d c => exact withDff_ne_fault (fun _ => withClock_ne_fault (fun _ => complete_ne_fault _ _ r))
  | _ => exact nofun

theorem issue_ne_fault (e : Encoded) (s : State) (r : Fault) : issue e s ≠ .fault r := by
  unfold issue
  split
  · exact exec_ne_fault _ s r
  · exact nofun

/-- An operation issued inside an expression never stops with a boundary fault. -/
theorem issueValue_ne_fault (e : Encoded) (s : State) (causes : List FaultReason) :
    issueValue e s ≠ .error (.fault causes) := by
  unfold issueValue
  split
  · exact nofun
  · exact absurd ‹_› (issue_ne_fault e s _)
  · exact nofun

/-- The value of an operation other than a creation holds no instance. -/
theorem issueValue_free {e : Encoded} {s : State} {v : Value} (h84 : e.row ≠ 84) (h87 : e.row ≠ 87)
    (h : issueValue e s = .ok v) : RefFree v := by
  unfold issueValue at h
  split at h
  · rename_i t ht
    cases h
    obtain ⟨i, hd, hx⟩ := issue_next ht
    have hrow := decode_row hd
    cases exec_cases hx with
    | read v free eq => rw [eq]; exact free
    | newClock instr room eq => subst instr; exact absurd hrow.symm h84
    | tickClock c p instr old eq => rw [eq]; exact fun _ => rfl
    | newDff instr room eq => subst instr; exact absurd hrow.symm h87
    | writeDff d b c f p instr old phase eq => rw [eq]; exact fun _ => rfl
  · cases h
  · cases h

/-- The causes the boundary operations record (R103, R107). -/
theorem wordOfTokens_causes {ts : List Token} {causes : List FaultReason} (h : wordOfTokens ts = .error causes) :
    causesLegal causes = true := by
  have key : ∀ k, ts.findIdx? (fun t => !tokenOk t) = some k → k < ts.length := by
    intro k hk
    exact (List.findIdx?_eq_some_iff_findIdx_eq.mp hk).1
  unfold wordOfTokens lengthCauses tokenCauses at h
  split at h
  · cases h
  · cases h
    rename_i hne
    revert hne
    cases hk : ts.findIdx? (fun t => !tokenOk t) with
    | none => by_cases hl : ts.length = 16 <;> simp [hl, causesLegal]
    | some k =>
      have hlt := key k hk
      by_cases hl : ts.length = 16
      · simp only [hl, if_true]
        intro _
        simp [causesLegal]
        omega
      · simp [hl, causesLegal, hlt]

theorem bitOfNumber_causes {n : Int} {causes : List FaultReason} (h : bitOfNumber n = .error causes) :
    causesLegal causes = true := by
  unfold bitOfNumber at h
  split at h
  · cases h
  · split at h
    · cases h
    · cases h
      simp_all [causesLegal]

theorem readIndex_causes {w : Word} {i : Nat} {causes : List FaultReason} (h : readIndex w i = .error causes) :
    causesLegal causes = true := by
  unfold readIndex at h
  split at h
  · cases h
  · cases h
    simp [causesLegal]
    omega

theorem atBoundary_causes {α : Type} {mk : α → Value} {r : Except (List FaultReason) α} {causes : List FaultReason}
    (hr : ∀ cs, r = .error cs → causesLegal cs = true) (h : atBoundary mk r = .error (.fault causes)) :
    causesLegal causes = true := by
  unfold atBoundary at h
  split at h
  · cases h
  · cases h
    exact hr _ rfl

theorem atBoundary_ok {α : Type} {mk : α → Value} {r : Except (List FaultReason) α} {v : Value}
    (h : atBoundary mk r = .ok v) : ∃ a, r = .ok a ∧ v = mk a := by
  unfold atBoundary at h
  split at h
  · cases h
    exact ⟨_, rfl, rfl⟩
  · cases h

theorem lookupName_ok {s : State} {n : Name} {v : Value} (h : lookupName s n = .ok v) : s.value? n = some v := by
  unfold lookupName at h
  split at h
  · cases h
    assumption
  · cases h

theorem lookupName_ne_fault (s : State) (n : Name) (causes : List FaultReason) : lookupName s n ≠ .error (.fault causes) := by
  unfold lookupName
  split <;> exact nofun

theorem clockNamed_eq {s : State} {n : Name} {c : Nat} (h : s.value? n = some (.clock c)) : clockNamed s n = .ok c := by
  simp [clockNamed, lookupName, h]

theorem dffNamed_eq {s : State} {n : Name} {d : Nat} (h : s.value? n = some (.dff d)) : dffNamed s n = .ok d := by
  simp [dffNamed, lookupName, h]

theorem clockNamed_ne_fault (s : State) (n : Name) (causes : List FaultReason) : clockNamed s n ≠ .error (.fault causes) := by
  unfold clockNamed
  split
  · exact nofun
  · exact nofun
  · intro h
    cases h
    exact lookupName_ne_fault s n causes ‹_›

theorem dffNamed_ne_fault (s : State) (n : Name) (causes : List FaultReason) : dffNamed s n ≠ .error (.fault causes) := by
  unfold dffNamed
  split
  · exact nofun
  · exact nofun
  · intro h
    cases h
    exact lookupName_ne_fault s n causes ‹_›

theorem valueBits_ne_fault (v : Value) (causes : List FaultReason) : valueBits v ≠ .error (.fault causes) := by
  cases v <;> simp [valueBits]

theorem valueBit_ne_fault (v : Value) (causes : List FaultReason) : valueBit v ≠ .error (.fault causes) := by
  unfold valueBit
  split
  · exact nofun
  · exact nofun
  · intro h
    cases h
    exact valueBits_ne_fault v causes ‹_›

theorem valueWord_ne_fault (v : Value) (causes : List FaultReason) : valueWord v ≠ .error (.fault causes) := by
  cases v <;> simp [valueWord]

theorem selectPort_ne_fault (v : Value) (p : Port) (causes : List FaultReason) : selectPort v p ≠ .error (.fault causes) := by
  unfold selectPort
  split <;> first | (split <;> simp) | simp

/-- A port of a result is a Bit or a Word, never an instance. -/
theorem selectPort_free {v w : Value} {p : Port} (h : selectPort v p = .ok w) : RefFree w := by
  unfold selectPort at h
  split at h <;> first
    | (cases h; exact fun _ => rfl)
    | (split at h <;> first | (cases h; exact fun _ => rfl) | cases h)
    | cases h

theorem callComponent_ne_fault (s : State) (row : Nat) (args : List (List Bit)) (causes : List FaultReason) :
    callComponent s row args ≠ .error (.fault causes) := by
  unfold callComponent
  split
  · exact nofun
  · split
    · exact nofun
    · split
      · exact nofun
      · exact issueValue_ne_fault _ s causes

theorem isComponentRow_iff (row : Nat) : isComponentRow row = true ↔ row < 84 := by
  simp [isComponentRow, aluRows, componentShapes]

theorem callComponent_free {s : State} {row : Nat} {args : List (List Bit)} {v : Value} (h : callComponent s row args = .ok v) :
    RefFree v := by
  unfold callComponent at h
  split at h
  · cases h
  · split at h
    · cases h
    · split at h
      · cases h
      · rename_i hc _
        have hlt : row < 84 := (isComponentRow_iff row).mp (by simpa using hc)
        exact issueValue_free (show row ≠ 84 by omega) (show row ≠ 87 by omega) h

theorem outputValue_ne_fault (s : State) (d c : Name) (causes : List FaultReason) :
    outputValue s d c ≠ .error (.fault causes) := by
  unfold outputValue
  split
  · intro h
    cases h
    exact dffNamed_ne_fault s d causes ‹_›
  · split
    · intro h
      cases h
      exact clockNamed_ne_fault s c causes ‹_›
    · exact issueValue_ne_fault _ s causes

theorem outputValue_free {s : State} {d c : Name} {v : Value} (h : outputValue s d c = .ok v) : RefFree v := by
  unfold outputValue at h
  split at h
  · cases h
  · split at h
    · cases h
    · exact issueValue_free (show (89 : Nat) ≠ 84 by decide) (show (89 : Nat) ≠ 87 by decide) h

theorem phaseValue_ne_fault (s : State) (c : Name) (causes : List FaultReason) :
    phaseValue s c ≠ .error (.fault causes) := by
  unfold phaseValue
  split
  · intro h
    cases h
    exact clockNamed_ne_fault s c causes ‹_›
  · exact issueValue_ne_fault _ s causes

theorem phaseValue_free {s : State} {c : Name} {v : Value} (h : phaseValue s c = .ok v) : RefFree v := by
  unfold phaseValue at h
  split at h
  · cases h
  · exact issueValue_free (show (86 : Nat) ≠ 84 by decide) (show (86 : Nat) ≠ 87 by decide) h

theorem packValue_free (bs : List Bit) : RefFree (packValue bs) := by
  intro u
  unfold packValue
  split <;> rfl

/-- A value of an expression is an instance only if a name of the driver stands for it. -/
theorem eval_value {s : State} {e : Expr} {v : Value} (h : eval s e = .ok v) :
    RefFree v ∨ ∃ n, s.value? n = some v := by
  cases e with
  | bit b => cases h; exact .inl fun _ => rfl
  | word w => cases h; exact .inl fun _ => rfl
  | tokens ts =>
    obtain ⟨a, -, rfl⟩ := atBoundary_ok h
    exact .inl fun _ => rfl
  | number n =>
    obtain ⟨a, -, rfl⟩ := atBoundary_ok h
    exact .inl fun _ => rfl
  | name n => exact .inr ⟨n, lookupName_ok h⟩
  | port e p =>
    rw [eval] at h
    split at h
    · cases h
    · exact .inl (selectPort_free h)
  | index e i =>
    rw [eval] at h
    split at h
    · cases h
    · split at h
      · cases h
      · obtain ⟨a, -, rfl⟩ := atBoundary_ok h
        exact .inl fun _ => rfl
  | pack es =>
    rw [eval] at h
    split at h
    · cases h
    · cases h
      exact .inl (packValue_free _)
  | call row args =>
    rw [eval] at h
    split at h
    · cases h
    · exact .inl (callComponent_free h)
  | output d c => exact .inl (outputValue_free (by rwa [eval] at h))
  | phase c => exact .inl (phaseValue_free (by rwa [eval] at h))

mutual
/-- An expression that faults records a set of causes that one boundary operation can have (R103, R107). -/
theorem eval_causes {s : State} {e : Expr} {causes : List FaultReason} (h : eval s e = .error (.fault causes)) :
    causesLegal causes = true := by
  match e with
  | .bit b => cases h
  | .word w => cases h
  | .tokens ts => exact atBoundary_causes (fun _ => wordOfTokens_causes) (by rwa [eval] at h)
  | .number n => exact atBoundary_causes (fun _ => bitOfNumber_causes) (by rwa [eval] at h)
  | .name n => exact absurd (by rwa [eval] at h) (lookupName_ne_fault s n causes)
  | .port e p =>
    rw [eval] at h
    split at h
    · cases h
      exact eval_causes ‹_›
    · exact absurd h (selectPort_ne_fault _ p causes)
  | .index e i =>
    rw [eval] at h
    split at h
    · cases h
      exact eval_causes ‹_›
    · split at h
      · cases h
        exact absurd ‹_› (valueWord_ne_fault _ causes)
      · exact atBoundary_causes (fun _ => readIndex_causes) h
  | .pack es =>
    rw [eval] at h
    split at h
    · cases h
      exact evalArgs_causes ‹_›
    · cases h
  | .call row args =>
    rw [eval] at h
    split at h
    · cases h
      exact evalArgs_causes ‹_›
    · exact absurd h (callComponent_ne_fault s row _ causes)
  | .output d c => exact absurd (by rwa [eval] at h) (outputValue_ne_fault s d c causes)
  | .phase c => exact absurd (by rwa [eval] at h) (phaseValue_ne_fault s c causes)

theorem evalArgs_causes {s : State} {es : Args} {causes : List FaultReason} (h : evalArgs s es = .error (.fault causes)) :
    causesLegal causes = true := by
  match es with
  | .nil => cases h
  | .cons e es =>
    rw [evalArgs] at h
    split at h
    · cases h
      exact eval_causes ‹_›
    · split at h
      · cases h
        exact absurd ‹_› (valueBits_ne_fault _ causes)
      · split at h
        · cases h
          exact evalArgs_causes ‹_›
        · cases h
end

theorem evalBit_causes {s : State} {e : Expr} {causes : List FaultReason} (h : evalBit s e = .error (.fault causes)) :
    causesLegal causes = true := by
  unfold evalBit at h
  split at h
  · cases h
    exact eval_causes ‹_›
  · exact absurd h (valueBit_ne_fault _ causes)

/-- Everything one statement of the driver can do to the state. -/
inductive StmtCase (s t : State) : Prop where
  /-- It issued one instruction. -/
  | issued (i : Instr) (run : exec i s = .next t)
  /-- It issued one instruction and bound its output to a name. -/
  | created (i : Instr) (n : Name) (u : State) (run : exec i s = .next u) (eq : t = u.bind n u.out)
  /-- It bound a value to a name. -/
  | bound (n : Name) (v : Value) (value : RefFree v ∨ ∃ m, s.value? m = some v) (eq : t = (s.setOut v).bind n v)
  /-- It chose what to run next. -/
  | chose (p : Prog) (eq : t = s.setProgram p)
  /-- It entered the fault state. -/
  | faulted (causes : List FaultReason) (legal : causesLegal causes = true) (eq : t = s.enterFault causes)

theorem stopWith_next {s t : State} {st : Stop} (legal : ∀ cs, st = .fault cs → causesLegal cs = true)
    (h : stopWith s st = .next t) : StmtCase s t := by
  cases st with
  | fault causes => cases h; exact .faulted causes (legal _ rfl) rfl
  | refused r => cases h

theorem stmtCase_issue {e : Encoded} {s t : State} (h : issue e s = .next t) : StmtCase s t := by
  obtain ⟨i, -, hx⟩ := issue_next h
  exact .issued i hx

theorem stmtCase_issueAs {n : Name} {e : Encoded} {s t : State} (h : issueAs n e s = .next t) : StmtCase s t := by
  unfold issueAs at h
  split at h
  · rename_i u hu
    obtain ⟨i, -, hx⟩ := issue_next hu
    cases h
    exact .created i n _ hx rfl
  · cases h
  · cases h

/-- What a statement can do: one of five things. -/
theorem runStmt_cases {st : Stmt} {s t : State} (h : runStmt st s = .next t) : StmtCase s t := by
  cases st with
  | op e => exact stmtCase_issue h
  | clock c => exact stmtCase_issueAs h
  | dff d => exact stmtCase_issueAs h
  | next c =>
    simp only [runStmt, runNext] at h
    split at h
    · exact stopWith_next (fun cs hc => by subst hc; exact absurd ‹_› (clockNamed_ne_fault s c cs)) h
    · exact stmtCase_issue h
  | input d e c =>
    simp only [runStmt, runInput] at h
    split at h
    · exact stopWith_next (fun cs hc => by subst hc; exact absurd ‹_› (dffNamed_ne_fault s d cs)) h
    · split at h
      · exact stopWith_next (fun cs hc => by subst hc; exact absurd ‹_› (clockNamed_ne_fault s c cs)) h
      · split at h
        · exact stopWith_next (fun cs hc => by subst hc; exact evalBit_causes ‹_›) h
        · exact stmtCase_issue h
  | letE n e =>
    simp only [runStmt, runLet] at h
    split at h
    · exact stopWith_next (fun cs hc => by subst hc; exact eval_causes ‹_›) h
    · cases h
      exact .bound n _ (eval_value ‹_›) rfl
  | loop n body =>
    simp only [runStmt, runLoop] at h
    split at h
    · cases h
      exact .chose _ rfl
    · cases h
      exact .chose _ rfl
  | ifElse e yes no =>
    simp only [runStmt, runIf] at h
    split at h
    · exact stopWith_next (fun cs hc => by subst hc; exact evalBit_causes ‹_›) h
    · cases h
      exact .chose _ rfl

/-- A step that answers a next state ran in a state without a fault: nothing, or the next statement (R105). -/
theorem step_cases {s t : State} (h : step s = .next t) :
    s.fault = none ∧ ((s.program = .nil ∧ t = s) ∨
      ∃ st rest, s.program = .cons st rest ∧ runStmt st (s.setProgram rest) = .next t) := by
  unfold step driverStep at h
  split at h
  · cases h
  · rename_i hf
    refine ⟨hf, ?_⟩
    split at h
    · rename_i hp
      cases h
      exact .inl ⟨hp, rfl⟩
    · rename_i st rest hp
      exact .inr ⟨st, rest, hp, h⟩

/-- A step with a statement to run is that statement, in the state whose program is what follows it. -/
theorem step_cons {s : State} {st : Stmt} {rest : Prog} (hf : s.fault = none) (hp : s.program = .cons st rest) :
    step s = runStmt st (s.setProgram rest) := by
  simp [step, driverStep, hf, hp]

end Sys2Proof.Machine
end

