-- ==== Sys2Proof/Laws/Gates.lean ====
section
/-! SUPPORT. What each component computes: every component is defined by its NAND composition (R4), and these lemmas give the
closed form once, so that no proof unfolds a composition. -/

namespace Sys2Proof.Machine

/-! The one-Bit gates (R45 to R51). -/

theorem nandGate_eq (a b : Bit) : nandGate a b = !(a && b) := by cases a <;> cases b <;> rfl

theorem notGate_eq (a : Bit) : notGate a = !a := by cases a <;> rfl

theorem andGate_eq (a b : Bit) : andGate a b = (a && b) := by cases a <;> cases b <;> rfl

theorem orGate_eq (a b : Bit) : orGate a b = (a || b) := by cases a <;> cases b <;> rfl

theorem xorGate_eq (a b : Bit) : xorGate a b = (a ^^ b) := by cases a <;> cases b <;> rfl

theorem muxGate_eq (a b sel : Bit) : muxGate a b sel = bif sel then b else a := by
  cases a <;> cases b <;> cases sel <;> rfl

theorem dMuxGate_eq (inp sel : Bit) : dMuxGate inp sel = (inp && !sel, inp && sel) := by
  cases inp <;> cases sel <;> rfl

/-! The 16-wide lifts (R52 to R55), lane by lane. -/

theorem not16_eq (a : Word) : not16 a = ~~~a := by
  apply word_ext
  intro i hi
  rw [not16, bit_lanes _ i hi, notGate_eq]
  simp [bit, hi]

theorem and16_eq (a b : Word) : and16 a b = a &&& b := by
  apply word_ext
  intro i hi
  rw [and16, bit_lanes _ i hi, andGate_eq]
  simp [bit]

theorem or16_eq (a b : Word) : or16 a b = a ||| b := by
  apply word_ext
  intro i hi
  rw [or16, bit_lanes _ i hi, orGate_eq]
  simp [bit]

theorem mux16_eq (a b : Word) (sel : Bit) : mux16 a b sel = bif sel then b else a := by
  apply word_ext
  intro i hi
  rw [mux16, bit_lanes _ i hi, muxGate_eq]
  cases sel <;> rfl

/-! The N-way components (R56 to R60). -/

theorem or8Way_eq (in0 in1 in2 in3 in4 in5 in6 in7 : Bit) :
    or8Way in0 in1 in2 in3 in4 in5 in6 in7 = [in0, in1, in2, in3, in4, in5, in6, in7].any id := by
  simp [or8Way, orGate_eq, Bool.or_assoc]

theorem mux4Way16_eq (in0 in1 in2 in3 : Word) (sel0 sel1 : Bit) :
    mux4Way16 in0 in1 in2 in3 sel0 sel1 =
      bif sel0 then (bif sel1 then in3 else in2) else (bif sel1 then in1 else in0) := by
  simp [mux4Way16, mux16_eq]

theorem mux8Way16_eq (in0 in1 in2 in3 in4 in5 in6 in7 : Word) (sel0 sel1 sel2 : Bit) :
    mux8Way16 in0 in1 in2 in3 in4 in5 in6 in7 sel0 sel1 sel2 =
      bif sel0 then mux4Way16 in4 in5 in6 in7 sel1 sel2 else mux4Way16 in0 in1 in2 in3 sel1 sel2 := by
  simp [mux8Way16, mux16_eq]

theorem dMux4Way_eq (inp sel0 sel1 : Bit) :
    dMux4Way inp sel0 sel1 = [inp && !sel0 && !sel1, inp && !sel0 && sel1, inp && sel0 && !sel1, inp && sel0 && sel1] := by
  simp [dMux4Way, dMuxGate_eq]

theorem dMux8Way_eq (inp sel0 sel1 sel2 : Bit) :
    dMux8Way inp sel0 sel1 sel2 = dMux4Way (inp && !sel0) sel1 sel2 ++ dMux4Way (inp && sel0) sel1 sel2 := by
  simp [dMux8Way, dMuxGate_eq]

/-! The adders (R62 to R65). -/

theorem halfAdder_eq (a b : Bit) : halfAdder a b = (a && b, a ^^ b) := by
  simp [halfAdder, andGate_eq, xorGate_eq]

/-- `2·carry + sum = a + b + c` (R63). -/
theorem fullAdder_sum (a b c : Bit) :
    2 * (fullAdder a b c).1.toNat + (fullAdder a b c).2.toNat = a.toNat + b.toNat + c.toNat := by
  cases a <;> cases b <;> cases c <;> rfl

theorem bitsVal_foldl (bs : List Bit) (acc : Nat) :
    bs.foldl (fun n b => 2 * n + b.toNat) acc = acc * 2 ^ bs.length + bitsVal bs := by
  induction bs generalizing acc with
  | nil => simp [bitsVal]
  | cons b bs ih =>
    rw [bitsVal, List.foldl_cons, List.foldl_cons, ih, ih (2 * 0 + b.toNat), List.length_cons, pow_succ]
    ring

/-- A Bit in front of a list has the weight of the list's length. -/
theorem bitsVal_cons (b : Bit) (bs : List Bit) : bitsVal (b :: bs) = b.toNat * 2 ^ bs.length + bitsVal bs := by
  rw [bitsVal, List.foldl_cons, bitsVal_foldl]
  simp

/-- The ripple carry's loop invariant (R64, R67): with `k` indices to go, the sums made so far and the carry hold the sum of the
low `16 - k` Bits of the operands. -/
theorem addStages_val (a b : Word) (k : Nat) (hk : k ≤ 16) (carry : Bit) (sums : List Bit) (hl : sums.length = 16 - k)
    (h : bitsVal sums + carry.toNat * 2 ^ (16 - k) = a.toNat % 2 ^ (16 - k) + b.toNat % 2 ^ (16 - k)) :
    bitsVal (addStages a b k carry sums) % 2 ^ 16 = (a.toNat + b.toNat) % 2 ^ 16 := by
  induction k generalizing carry sums with
  | zero =>
    have ha := a.isLt
    have hb := b.isLt
    simp only [Nat.sub_zero, Nat.mod_eq_of_lt ha, Nat.mod_eq_of_lt hb] at h
    rw [addStages, ← h, Nat.add_mul_mod_self_right]
  | succ i ih =>
    have hs := fullAdder_sum (bit a i) (bit b i) carry
    rw [addStages]
    revert hs
    obtain ⟨carry', sum⟩ := fullAdder (bit a i) (bit b i) carry
    intro hs
    have hw : 16 - i = (16 - (i + 1)) + 1 := by omega
    have hlane : ∀ w : Word, bit w i = w.toNat.testBit (16 - (i + 1)) := by
      intro w
      rw [bit, BitVec.getMsbD, BitVec.getLsbD, decide_eq_true (by omega : i < 16), Bool.true_and, Nat.sub_sub, Nat.add_comm 1 i]
    refine ih (by omega) carry' (sum :: sums) (by simp [hl]; omega) ?_
    rw [hw, Nat.mod_pow_succ, Nat.mod_pow_succ, ← Nat.toNat_testBit, ← Nat.toNat_testBit, ← hlane a, ← hlane b,
      bitsVal_cons, hl, pow_succ]
    generalize 2 ^ (16 - (i + 1)) = p at *
    nlinarith [congrArg (· * p) hs]

/-- `Add16` is addition modulo 2^16 (R64). -/
theorem add16_eq (a b : Word) : add16 a b = a + b := by
  apply BitVec.eq_of_toNat_eq
  rw [add16, wordOfBits, BitVec.toNat_ofNat, BitVec.toNat_add]
  exact addStages_val a b 16 (le_refl _) Bit.O [] rfl (by simp [bitsVal, Nat.mod_one])

theorem inc16_eq (a : Word) : inc16 a = a + 1 := add16_eq a one16

/-! The ALU (R69 to R74). -/

theorem aluOperand_eq (v : Word) (zero negate : Bit) :
    aluOperand v zero negate = bif negate then ~~~(bif zero then zero16 else v) else (bif zero then zero16 else v) := by
  simp [aluOperand, mux16_eq, not16_eq]

theorem aluFunction_eq (x2 y2 : Word) (f : Bit) : aluFunction x2 y2 f = bif f then x2 + y2 else x2 &&& y2 := by
  simp [aluFunction, mux16_eq, and16_eq, add16_eq]

theorem aluOut_eq (zx nx zy ny f no : Bit) (x y : Word) :
    aluOut zx nx zy ny f no x y =
      bif no then ~~~(aluFunction (aluOperand x zx nx) (aluOperand y zy ny) f)
      else aluFunction (aluOperand x zx nx) (aluOperand y zy ny) f := by
  simp [aluOut, mux16_eq, not16_eq]

theorem orSlice_eq (w : Word) (k : Nat) : orSlice w k = (List.range 8).any (fun i => bit w (k + i)) := by
  rw [orSlice, or8Way_eq]
  rfl

/-- `zr` is `I` exactly when every Bit of `out` is `O` (R73). -/
theorem zeroFlag_eq (w : Word) : zeroFlag w = decide (w = zero16) := by
  rw [zeroFlag, notGate_eq, orGate_eq, orSlice_eq, orSlice_eq]
  rw [Bool.eq_iff_iff]
  simp only [Bool.not_eq_true', Bool.or_eq_false_iff, List.any_eq_false, List.mem_range, Bool.not_eq_true, decide_eq_true_eq]
  constructor
  · rintro ⟨hlo, hhi⟩
    apply word_ext
    intro i hi
    by_cases h : i < 8
    · simpa [bit] using hlo i h
    · have := hhi (i - 8) (by omega)
      rw [show 8 + (i - 8) = i by omega] at this
      simpa [bit] using this
  · rintro rfl
    simp [bit]

/-- The identity behind R75's linear forms: `Not16(v) = −v − 1` modulo 2^16. -/
theorem not_eq_neg_sub_one (v : Word) : ~~~v = -v - 1 := by
  rw [BitVec.neg_eq_not_add]
  simp

theorem ones16_eq : ones16 = (-1 : Word) := by decide

theorem and_ones16 (v : Word) : v &&& ones16 = v := BitVec.and_allOnes

theorem ones16_and (v : Word) : ones16 &&& v = v := BitVec.allOnes_and

/-- `ng` is the sign Bit (R74). -/
theorem negFlag_eq (w : Word) : negFlag w = w.msb := bit_zero_eq_msb w

/-- `zr` in the numeric view: `uval(out) = 0` (R73). -/
theorem zeroFlag_eq_uval (w : Word) : zeroFlag w = decide (uval w = 0) := by
  rw [zeroFlag_eq]
  exact decide_eq_decide.mpr BitVec.toNat_inj.symm

/-- `ng` in the numeric view: `sval(out) < 0` (R74). -/
theorem negFlag_eq_sval (w : Word) : negFlag w = decide (sval w < 0) := by
  rw [negFlag_eq, sval_eq_toInt, BitVec.msb_eq_toInt]

end Sys2Proof.Machine
end

