-- ==== Sys2Proof/Laws/PerInstr.lean ====
section
/-! SUPPORT. Statements about every instruction as syntax, one lemma per constructor. -/

namespace Sys2Proof.Laws.EncodingShape

open Sys2Proof.Machine

/-- The instruction's encoding names a row of the table and has that row's operands (R39, R41). -/
def Statement (i : Instr) : Prop := (encode i).wellFormed = true

/-- An ALU row: two Word ports (R35, R39). -/
theorem alu (code : Nat) (h : code < aluRows) (x y : Word) :
    (Encoded.mk code [] (wordBits x ++ wordBits y)).wellFormed = true := by
  simp [Encoded.wellFormed, rowShape, h]

theorem aluXAndY (x y : Word) : Statement (.aluXAndY x y) := alu 0 (by decide) x y

theorem alu000001 (x y : Word) : Statement (.alu000001 x y) := alu 1 (by decide) x y

theorem aluXPlusY (x y : Word) : Statement (.aluXPlusY x y) := alu 2 (by decide) x y

theorem alu000011 (x y : Word) : Statement (.alu000011 x y) := alu 3 (by decide) x y

theorem alu000100 (x y : Word) : Statement (.alu000100 x y) := alu 4 (by decide) x y

theorem alu000101 (x y : Word) : Statement (.alu000101 x y) := alu 5 (by decide) x y

theorem alu000110 (x y : Word) : Statement (.alu000110 x y) := alu 6 (by decide) x y

theorem aluYMinusX (x y : Word) : Statement (.aluYMinusX x y) := alu 7 (by decide) x y

theorem alu001000 (x y : Word) : Statement (.alu001000 x y) := alu 8 (by decide) x y

theorem alu001001 (x y : Word) : Statement (.alu001001 x y) := alu 9 (by decide) x y

theorem alu001010 (x y : Word) : Statement (.alu001010 x y) := alu 10 (by decide) x y

theorem alu001011 (x y : Word) : Statement (.alu001011 x y) := alu 11 (by decide) x y

theorem aluX (x y : Word) : Statement (.aluX x y) := alu 12 (by decide) x y

theorem aluNotX (x y : Word) : Statement (.aluNotX x y) := alu 13 (by decide) x y

theorem aluXMinus1 (x y : Word) : Statement (.aluXMinus1 x y) := alu 14 (by decide) x y

theorem aluNegX (x y : Word) : Statement (.aluNegX x y) := alu 15 (by decide) x y

theorem alu010000 (x y : Word) : Statement (.alu010000 x y) := alu 16 (by decide) x y

theorem alu010001 (x y : Word) : Statement (.alu010001 x y) := alu 17 (by decide) x y

theorem alu010010 (x y : Word) : Statement (.alu010010 x y) := alu 18 (by decide) x y

theorem aluXMinusY (x y : Word) : Statement (.aluXMinusY x y) := alu 19 (by decide) x y

theorem alu010100 (x y : Word) : Statement (.alu010100 x y) := alu 20 (by decide) x y

theorem aluXOrY (x y : Word) : Statement (.aluXOrY x y) := alu 21 (by decide) x y

theorem alu010110 (x y : Word) : Statement (.alu010110 x y) := alu 22 (by decide) x y

theorem alu010111 (x y : Word) : Statement (.alu010111 x y) := alu 23 (by decide) x y

theorem alu011000 (x y : Word) : Statement (.alu011000 x y) := alu 24 (by decide) x y

theorem alu011001 (x y : Word) : Statement (.alu011001 x y) := alu 25 (by decide) x y

theorem alu011010 (x y : Word) : Statement (.alu011010 x y) := alu 26 (by decide) x y

theorem alu011011 (x y : Word) : Statement (.alu011011 x y) := alu 27 (by decide) x y

theorem alu011100 (x y : Word) : Statement (.alu011100 x y) := alu 28 (by decide) x y

theorem alu011101 (x y : Word) : Statement (.alu011101 x y) := alu 29 (by decide) x y

theorem alu011110 (x y : Word) : Statement (.alu011110 x y) := alu 30 (by decide) x y

theorem aluXPlus1 (x y : Word) : Statement (.aluXPlus1 x y) := alu 31 (by decide) x y

theorem alu100000 (x y : Word) : Statement (.alu100000 x y) := alu 32 (by decide) x y

theorem alu100001 (x y : Word) : Statement (.alu100001 x y) := alu 33 (by decide) x y

theorem alu100010 (x y : Word) : Statement (.alu100010 x y) := alu 34 (by decide) x y

theorem alu100011 (x y : Word) : Statement (.alu100011 x y) := alu 35 (by decide) x y

theorem alu100100 (x y : Word) : Statement (.alu100100 x y) := alu 36 (by decide) x y

theorem alu100101 (x y : Word) : Statement (.alu100101 x y) := alu 37 (by decide) x y

theorem alu100110 (x y : Word) : Statement (.alu100110 x y) := alu 38 (by decide) x y

theorem alu100111 (x y : Word) : Statement (.alu100111 x y) := alu 39 (by decide) x y

theorem alu101000 (x y : Word) : Statement (.alu101000 x y) := alu 40 (by decide) x y

theorem alu101001 (x y : Word) : Statement (.alu101001 x y) := alu 41 (by decide) x y

theorem aluZero (x y : Word) : Statement (.aluZero x y) := alu 42 (by decide) x y

theorem alu101011 (x y : Word) : Statement (.alu101011 x y) := alu 43 (by decide) x y

theorem alu101100 (x y : Word) : Statement (.alu101100 x y) := alu 44 (by decide) x y

theorem alu101101 (x y : Word) : Statement (.alu101101 x y) := alu 45 (by decide) x y

theorem alu101110 (x y : Word) : Statement (.alu101110 x y) := alu 46 (by decide) x y

theorem alu101111 (x y : Word) : Statement (.alu101111 x y) := alu 47 (by decide) x y

theorem aluY (x y : Word) : Statement (.aluY x y) := alu 48 (by decide) x y

theorem aluNotY (x y : Word) : Statement (.aluNotY x y) := alu 49 (by decide) x y

theorem aluYMinus1 (x y : Word) : Statement (.aluYMinus1 x y) := alu 50 (by decide) x y

theorem aluNegY (x y : Word) : Statement (.aluNegY x y) := alu 51 (by decide) x y

theorem alu110100 (x y : Word) : Statement (.alu110100 x y) := alu 52 (by decide) x y

theorem alu110101 (x y : Word) : Statement (.alu110101 x y) := alu 53 (by decide) x y

theorem alu110110 (x y : Word) : Statement (.alu110110 x y) := alu 54 (by decide) x y

theorem aluYPlus1 (x y : Word) : Statement (.aluYPlus1 x y) := alu 55 (by decide) x y

theorem alu111000 (x y : Word) : Statement (.alu111000 x y) := alu 56 (by decide) x y

theorem alu111001 (x y : Word) : Statement (.alu111001 x y) := alu 57 (by decide) x y

theorem aluNegOne (x y : Word) : Statement (.aluNegOne x y) := alu 58 (by decide) x y

theorem alu111011 (x y : Word) : Statement (.alu111011 x y) := alu 59 (by decide) x y

theorem alu111100 (x y : Word) : Statement (.alu111100 x y) := alu 60 (by decide) x y

theorem alu111101 (x y : Word) : Statement (.alu111101 x y) := alu 61 (by decide) x y

theorem alu111110 (x y : Word) : Statement (.alu111110 x y) := alu 62 (by decide) x y

theorem aluOne (x y : Word) : Statement (.aluOne x y) := alu 63 (by decide) x y

theorem nand (a b : Bit) : Statement (.nand a b) := rfl

theorem not (a : Bit) : Statement (.not a) := rfl

theorem and (a b : Bit) : Statement (.and a b) := rfl

theorem or (a b : Bit) : Statement (.or a b) := rfl

theorem xor (a b : Bit) : Statement (.xor a b) := rfl

theorem mux (a b sel : Bit) : Statement (.mux a b sel) := rfl

theorem dMux (inp sel : Bit) : Statement (.dMux inp sel) := rfl

theorem not16 (a : Word) :
    Statement (.not16 a) := by simp [Statement, encode, Encoded.wellFormed, rowShape, aluRows, componentShapes]

theorem and16 (a b : Word) :
    Statement (.and16 a b) := by simp [Statement, encode, Encoded.wellFormed, rowShape, aluRows, componentShapes]

theorem or16 (a b : Word) :
    Statement (.or16 a b) := by simp [Statement, encode, Encoded.wellFormed, rowShape, aluRows, componentShapes]

theorem mux16 (a b : Word) (sel : Bit) :
    Statement (.mux16 a b sel) := by simp [Statement, encode, Encoded.wellFormed, rowShape, aluRows, componentShapes]

theorem or8Way (in0 in1 in2 in3 in4 in5 in6 in7 : Bit) : Statement (.or8Way in0 in1 in2 in3 in4 in5 in6 in7) := rfl

theorem mux4Way16 (in0 in1 in2 in3 : Word) (sel0 sel1 : Bit) :
    Statement (.mux4Way16 in0 in1 in2 in3 sel0 sel1) := by simp [Statement, encode, Encoded.wellFormed, rowShape, aluRows, componentShapes]

theorem mux8Way16 (in0 in1 in2 in3 in4 in5 in6 in7 : Word) (sel0 sel1 sel2 : Bit) :
    Statement (.mux8Way16 in0 in1 in2 in3 in4 in5 in6 in7 sel0 sel1 sel2) := by simp [Statement, encode, Encoded.wellFormed, rowShape, aluRows, componentShapes]

theorem dMux4Way (inp sel0 sel1 : Bit) : Statement (.dMux4Way inp sel0 sel1) := rfl

theorem dMux8Way (inp sel0 sel1 sel2 : Bit) : Statement (.dMux8Way inp sel0 sel1 sel2) := rfl

theorem halfAdder (a b : Bit) : Statement (.halfAdder a b) := rfl

theorem fullAdder (a b c : Bit) : Statement (.fullAdder a b c) := rfl

theorem add16 (a b : Word) :
    Statement (.add16 a b) := by simp [Statement, encode, Encoded.wellFormed, rowShape, aluRows, componentShapes]

theorem inc16 (a : Word) :
    Statement (.inc16 a) := by simp [Statement, encode, Encoded.wellFormed, rowShape, aluRows, componentShapes]

theorem clockNew : Statement .clockNew := rfl

theorem clockNext (c : Nat) : Statement (.clockNext c) := rfl

theorem clockPhase (c : Nat) : Statement (.clockPhase c) := rfl

theorem dffNew : Statement .dffNew := rfl

theorem dffInput (d : Nat) (value : Bit) (c : Nat) : Statement (.dffInput d value c) := rfl

theorem dffOutput (d : Nat) (c : Nat) : Statement (.dffOutput d c) := rfl

end Sys2Proof.Laws.EncodingShape
end

