-- ==== Sys2Proof/Tests/Slice0.lean ====
section
/-! SUPPORT. Tests: ill-formed terms refused, words decoded from the spec's encodings, single steps with the values of
spec/95_test_vectors.md, and one witness for the hypotheses of every statement. -/

namespace Sys2Proof.Tests

open Sys2Proof Sys2Proof.Bit Sys2Proof.Machine Sys2Proof.Statements

/-! Small states and readings of an answer. -/

/-- One Clock and one DFF. -/
def with1 (p : Phase) (f : Dff) : State := { State.reset with clocks := [p], dffs := [f] }

/-- A Clock in each phase and two DFFs. -/
def with2 : State := { State.reset with clocks := [.tick, .tock], dffs := [⟨O, O⟩, ⟨O, I⟩] }

/-- One Clock and one DFF, called 0 and 1, and this program. -/
def named (p : Prog) : State :=
  { with1 .tick ⟨O, O⟩ with env := [(.plain 0, .clock 0), (.plain 1, .dff 0)], program := p }

/-- The next state, if there is one. -/
def nextOf (a : Answer) : Option State :=
  match a with
  | .next t => some t
  | .fault _ => none
  | .refused _ => none

/-- The refusal, if there is one. -/
def refusalOf (a : Answer) : Option Refusal :=
  match a with
  | .next _ => none
  | .fault _ => none
  | .refused r => some r

/-- The outputs of one instruction in the empty machine. -/
def outOf (i : Instr) : Option Value := outputs [i] State.reset

/-- The outputs of an ALU code. -/
def aluAt (code : Nat) (x y : Word) : Option (Word × Bit × Bit) :=
  match (aluInstr x y code).bind outOf with
  | some (.alu out zr ng) => some (out, zr, ng)
  | _ => none

/-- The decoder's refusal, if it refuses. -/
def decodeError (e : Encoded) : Option DecodeError :=
  match decode e with
  | .ok _ => none
  | .error err => some err

/-! Well-formedness: an ill-formed term for each check. -/

theorem test_wf_next_clock_in_bound : Instr.wellFormed ⟨1, 1⟩ (.clockNext 0) = true := by decide
theorem test_wf_next_clock_out_of_bound : Instr.wellFormed ⟨1, 1⟩ (.clockNext 1) = false := by decide
theorem test_wf_phase_clock_out_of_bound : Instr.wellFormed ⟨1, 1⟩ (.clockPhase 1) = false := by decide
theorem test_wf_input_dff_out_of_bound : Instr.wellFormed ⟨2, 1⟩ (.dffInput 1 I 1) = false := by decide
theorem test_wf_input_clock_out_of_bound : Instr.wellFormed ⟨1, 2⟩ (.dffInput 1 I 1) = false := by decide
theorem test_wf_output_dff_out_of_bound : Instr.wellFormed ⟨2, 1⟩ (.dffOutput 1 1) = false := by decide
theorem test_wf_output_clock_out_of_bound : Instr.wellFormed ⟨1, 2⟩ (.dffOutput 1 1) = false := by decide
theorem test_wf_encoded_unknown_row : Encoded.wellFormed ⟨90, [], []⟩ = false := by decide
theorem test_wf_encoded_ref_count : Encoded.wellFormed ⟨85, [], []⟩ = false := by decide
theorem test_wf_encoded_port_count : Encoded.wellFormed ⟨64, [], [I]⟩ = false := by decide
theorem test_wf_call_event_row : Expr.wellFormed (.call 84 .nil) = false := by decide
theorem test_wf_call_unknown_row : Expr.wellFormed (.call 90 .nil) = false := by decide
theorem test_wf_call_argument_count : Expr.wellFormed (.call 65 .nil) = false := by decide
theorem test_wf_call_nested : Expr.wellFormed (.call 65 (.cons (.call 84 .nil) .nil)) = false := by decide
theorem test_wf_call_well_formed : Expr.wellFormed (.call 65 (.cons (.bit I) .nil)) = true := by decide
theorem test_wf_port_of_ill_formed : Expr.wellFormed (.port (.call 84 .nil) .out) = false := by decide
theorem test_wf_index_of_ill_formed : Expr.wellFormed (.index (.call 84 .nil) 0) = false := by decide
theorem test_wf_pack_of_ill_formed : Expr.wellFormed (.pack (.cons (.call 84 .nil) .nil)) = false := by decide
theorem test_wf_program_op : Prog.wellFormed (.cons (.op ⟨90, [], []⟩) .nil) = false := by decide
theorem test_wf_program_let : Prog.wellFormed (.cons (.letE .scratch (.call 84 .nil)) .nil) = false := by decide
theorem test_wf_program_input : Prog.wellFormed (.cons (.input .scratch (.call 84 .nil) .scratch) .nil) = false := by decide
theorem test_wf_program_loop : Prog.wellFormed (.cons (.loop 2 (.cons (.op ⟨90, [], []⟩) .nil)) .nil) = false := by decide
theorem test_wf_program_if : Prog.wellFormed (.cons (.ifElse (.bit I) .nil (.cons (.op ⟨90, [], []⟩) .nil)) .nil) = false := by decide
theorem test_wf_program_condition : Prog.wellFormed (.cons (.ifElse (.call 84 .nil) .nil .nil) .nil) = false := by decide

/-! Decoding: words written from the spec's encodings (R35 to R39, R42). -/

/-- R36: `000010` packs to 2, `x+y`; port vector: `x` = 16 Bits from index 0, then `y` (R39); here `x = 0x8001`, `y = 0x0002`. -/
theorem test_decode_alu_x_plus_y :
    decode ⟨2, [], [I, O, O, O, O, O, O, O, O, O, O, O, O, O, O, I, O, O, O, O, O, O, O, O, O, O, O, O, O, O, I, O]⟩ =
      .ok (.aluXPlusY 0x8001#16 0x0002#16) := by decide +kernel
/-- R36: `101010` packs to 42, the constant 0. -/
theorem test_decode_alu_zero : decodeTableWord 8 0b101010 = some (.aluZero 0 0) := by decide +kernel
/-- R42: `010011` is `x-y`, `000111` is `y-x`, `111110` has no canonical name. -/
theorem test_decode_alu_words :
    decodeTableWord 8 0b010011 = some (.aluXMinusY 0 0) ∧ decodeTableWord 8 0b000111 = some (.aluYMinusX 0 0) ∧
    decodeTableWord 8 0b111110 = some (.alu111110 0 0) := by decide +kernel
/-- R39: `Nand` is `ab`. -/
theorem test_decode_nand : decode ⟨64, [], [O, I]⟩ = .ok (.nand O I) := by decide +kernel
/-- R39: `Mux` is `abs`, the selector last; `DMux` is `is`. -/
theorem test_decode_mux : decode ⟨69, [], [O, O, I]⟩ = .ok (.mux O O I) ∧ decode ⟨70, [], [I, O]⟩ = .ok (.dMux I O) := by
  decide +kernel
/-- R39: `Mux16` is `a`×16 `b`×16 `s`; here `a = 0x8000`, `b = 0x0001`, `s = 1`. -/
theorem test_decode_mux16 :
    decode ⟨74, [], [I, O, O, O, O, O, O, O, O, O, O, O, O, O, O, O, O, O, O, O, O, O, O, O, O, O, O, O, O, O, O, I, I]⟩ =
      .ok (.mux16 0x8000#16 0x0001#16 I) := by decide +kernel
/-- R39: `Or8Way` is `i`×8. -/
theorem test_decode_or8way : decode ⟨75, [], [O, O, O, I, O, O, O, O]⟩ = .ok (.or8Way O O O I O O O O) := by decide +kernel
/-- R39: `DMux8Way` is `isss`, `sel[0]` first (R37). -/
theorem test_decode_dmux8way : decode ⟨79, [], [I, I, O, O]⟩ = .ok (.dMux8Way I I O O) := by decide +kernel
/-- R39: `FullAdder` is `abc`, the carry-in last. -/
theorem test_decode_full_adder : decode ⟨81, [], [O, O, I]⟩ = .ok (.fullAdder O O I) := by decide +kernel
/-- R39: `Inc16` is `a`×16; here `a = 0x00FF`. -/
theorem test_decode_inc16 :
    decode ⟨83, [], [O, O, O, O, O, O, O, O, I, I, I, I, I, I, I, I]⟩ = .ok (.inc16 0x00FF#16) := by decide +kernel
/-- R39: the event rows; `DFF.input` takes a DFF, a Clock and `v`. -/
theorem test_decode_events :
    decode ⟨84, [], []⟩ = .ok .clockNew ∧ decode ⟨85, [7], []⟩ = .ok (.clockNext 7) ∧ decode ⟨86, [7], []⟩ = .ok (.clockPhase 7) ∧
    decode ⟨87, [], []⟩ = .ok .dffNew ∧ decode ⟨88, [4, 7], [I]⟩ = .ok (.dffInput 4 I 7) ∧
    decode ⟨89, [4, 7], []⟩ = .ok (.dffOutput 4 7) := by decide +kernel
/-- D20: another component (a 16-wide Xor, say) has no row. -/
theorem test_decode_unknown_block : decodeError ⟨90, [], [I]⟩ = some (.unknownBlock 90) := by decide
/-- R37, D24: a selector of another length is refused, and so is a missing instance operand. -/
theorem test_decode_selector_length :
    decodeError ⟨79, [], [I, I, O]⟩ = some (.portCount 79 4 3) ∧ decodeError ⟨78, [], [I, I, O, O]⟩ = some (.portCount 78 3 4) ∧
    decodeError ⟨89, [4], []⟩ = some (.refCount 89 2 1) := by decide
/-- Log entry 9: Bit `8 + k` of a table word is Bit `k` of the port vector. -/
theorem test_decode_table_word_ports : decodeTableWord 16 (64 + 2 ^ 9) = some (.nand O I) := by decide +kernel

/-! Single steps: 95_test_vectors.md. -/

/-- Section 2.1: columns Nand, And, Or, Xor at the four pairs in its order. -/
theorem test_scalar_gates :
    ([(O, O), (O, I), (I, O), (I, I)].map (fun p => [outOf (.nand p.1 p.2), outOf (.and p.1 p.2), outOf (.or p.1 p.2),
      outOf (.xor p.1 p.2), outOf (.not p.1)])) =
    [[I, O, O, O, I], [I, O, I, I, I], [I, O, I, I, O], [O, I, I, O, O]].map (fun r => r.map (fun b => some (.bit b))) := by
  decide +kernel
/-- Section 2.1: `Mux`, and `DMux(in = I)`. -/
theorem test_mux_and_dmux :
    outOf (.mux O I O) = some (.bit O) ∧ outOf (.mux O I I) = some (.bit I) ∧ outOf (.dMux I O) = some (.demux [I, O]) ∧
    outOf (.dMux I I) = some (.demux [O, I]) := by decide +kernel
/-- Section 2.2. -/
theorem test_wide_lifts :
    outOf (.not16 0x0F0F#16) = some (.word 0xF0F0#16) ∧ outOf (.and16 0x0F0F#16 0x00FF#16) = some (.word 0x000F#16) ∧
    outOf (.or16 0x0F0F#16 0x00FF#16) = some (.word 0x0FFF#16) ∧
    outOf (.mux16 0x0F0F#16 0x00FF#16 O) = some (.word 0x0F0F#16) ∧
    outOf (.mux16 0x0F0F#16 0x00FF#16 I) = some (.word 0x00FF#16) := by decide +kernel
/-- Section 2.3. -/
theorem test_or8way :
    outOf (.or8Way O O O O O O O O) = some (.bit O) ∧ outOf (.or8Way O O O I O O O O) = some (.bit I) := by decide +kernel
/-- Section 2.4: `10` selects `in2`, `110` selects `in6`. -/
theorem test_wide_mux :
    outOf (.mux4Way16 0x1000#16 0x2001#16 0x3002#16 0x4003#16 I O) = some (.word 0x3002#16) ∧
    outOf (.mux8Way16 0x1000#16 0x2001#16 0x3002#16 0x4003#16 0x5004#16 0x6005#16 0x7006#16 0x8007#16 I I O) =
      some (.word 0x7006#16) := by decide +kernel
/-- Section 2.5: `01` routes to `out1`, `100` to `out4`. -/
theorem test_wide_dmux :
    outOf (.dMux4Way I O I) = some (.demux [O, I, O, O]) ∧
    outOf (.dMux8Way I I O O) = some (.demux [O, O, O, O, I, O, O, O]) := by decide +kernel
/-- Section 2.6: the one-Bit adders. -/
theorem test_one_bit_adders :
    outOf (.halfAdder O I) = some (.carrySum O I) ∧ outOf (.halfAdder I I) = some (.carrySum I O) ∧
    outOf (.fullAdder O I I) = some (.carrySum I O) ∧ outOf (.fullAdder I I I) = some (.carrySum I I) := by decide +kernel
/-- Section 2.6: `Add16` with a carry through 8 stages, and with the carry out dropped. -/
theorem test_add16 :
    outOf (.add16 0x00FF#16 0x0001#16) = some (.word 0x0100#16) ∧ outOf (.add16 0x8000#16 0x8000#16) = some (.word 0x0000#16) := by
  decide +kernel
/-- Section 2.6: `Inc16` wraps and flips the sign. -/
theorem test_inc16 :
    outOf (.inc16 0xFFFF#16) = some (.word 0x0000#16) ∧ outOf (.inc16 0x7FFF#16) = some (.word 0x8000#16) := by decide +kernel

/-- R75, the vector column: codes 0 to 15 at `x = 0x0011`, `y = 0x0003`. -/
theorem test_alu_codes_0_to_15 :
    ((List.range' 0 16).map (fun k => aluAt k 0x0011#16 0x0003#16)) = [
     (0x0001#16, O, O), (0xFFFE#16, O, I), (0x0014#16, O, O), (0xFFEB#16, O, I),
     (0x0010#16, O, O), (0xFFEF#16, O, I), (0x000D#16, O, O), (0xFFF2#16, O, I),
     (0x0000#16, I, O), (0xFFFF#16, O, I), (0x0011#16, O, O), (0xFFEE#16, O, I),
     (0x0011#16, O, O), (0xFFEE#16, O, I), (0x0010#16, O, O), (0xFFEF#16, O, I)].map some := by decide +kernel

/-- R75, the vector column: codes 16 to 31 at `x = 0x0011`, `y = 0x0003`. -/
theorem test_alu_codes_16_to_31 :
    ((List.range' 16 16).map (fun k => aluAt k 0x0011#16 0x0003#16)) = [
     (0x0002#16, O, O), (0xFFFD#16, O, I), (0xFFF1#16, O, I), (0x000E#16, O, O),
     (0xFFEC#16, O, I), (0x0013#16, O, O), (0xFFEA#16, O, I), (0x0015#16, O, O),
     (0x0000#16, I, O), (0xFFFF#16, O, I), (0xFFEE#16, O, I), (0x0011#16, O, O),
     (0xFFEE#16, O, I), (0x0011#16, O, O), (0xFFED#16, O, I), (0x0012#16, O, O)].map some := by decide +kernel

/-- R75, the vector column: codes 32 to 47 at `x = 0x0011`, `y = 0x0003`. -/
theorem test_alu_codes_32_to_47 :
    ((List.range' 32 16).map (fun k => aluAt k 0x0011#16 0x0003#16)) = [
     (0x0000#16, I, O), (0xFFFF#16, O, I), (0x0003#16, O, O), (0xFFFC#16, O, I),
     (0x0000#16, I, O), (0xFFFF#16, O, I), (0xFFFC#16, O, I), (0x0003#16, O, O),
     (0x0000#16, I, O), (0xFFFF#16, O, I), (0x0000#16, I, O), (0xFFFF#16, O, I),
     (0x0000#16, I, O), (0xFFFF#16, O, I), (0xFFFF#16, O, I), (0x0000#16, I, O)].map some := by decide +kernel

/-- R75, the vector column: codes 48 to 63 at `x = 0x0011`, `y = 0x0003`. -/
theorem test_alu_codes_48_to_63 :
    ((List.range' 48 16).map (fun k => aluAt k 0x0011#16 0x0003#16)) = [
     (0x0003#16, O, O), (0xFFFC#16, O, I), (0x0002#16, O, O), (0xFFFD#16, O, I),
     (0xFFFC#16, O, I), (0x0003#16, O, O), (0xFFFB#16, O, I), (0x0004#16, O, O),
     (0x0000#16, I, O), (0xFFFF#16, O, I), (0xFFFF#16, O, I), (0x0000#16, I, O),
     (0xFFFF#16, O, I), (0x0000#16, I, O), (0xFFFE#16, O, I), (0x0001#16, O, O)].map some := by decide +kernel

/-- 95_test_vectors.md section 2.8: the canonical operations in its order, at `x = 0xFFFF`, `y = 0x0001`. -/
theorem test_alu_canonical_at_FFFF_0001 :
    ([42, 63, 58, 12, 48, 13, 49, 15, 51, 31, 55, 14, 50, 2, 19, 7, 0, 21].map (fun k => aluAt k 0xFFFF#16 0x0001#16)) = [
     (0x0000#16, I, O), (0x0001#16, O, O), (0xFFFF#16, O, I), (0xFFFF#16, O, I), (0x0001#16, O, O), (0x0000#16, I, O),
     (0xFFFE#16, O, I), (0x0001#16, O, O), (0xFFFF#16, O, I), (0x0000#16, I, O), (0x0002#16, O, O), (0xFFFE#16, O, I),
     (0x0000#16, I, O), (0x0000#16, I, O), (0xFFFE#16, O, I), (0x0002#16, O, O), (0x0001#16, O, O), (0xFFFF#16, O, I)].map some := by decide +kernel

/-- 95_test_vectors.md section 2.8: the canonical operations in its order, at `x = 0x8000`, `y = 0xFFFF`. -/
theorem test_alu_canonical_at_8000_FFFF :
    ([42, 63, 58, 12, 48, 13, 49, 15, 51, 31, 55, 14, 50, 2, 19, 7, 0, 21].map (fun k => aluAt k 0x8000#16 0xFFFF#16)) = [
     (0x0000#16, I, O), (0x0001#16, O, O), (0xFFFF#16, O, I), (0x8000#16, O, I), (0xFFFF#16, O, I), (0x7FFF#16, O, O),
     (0x0000#16, I, O), (0x8000#16, O, I), (0x0001#16, O, O), (0x8001#16, O, I), (0x0000#16, I, O), (0x7FFF#16, O, O),
     (0xFFFE#16, O, I), (0x7FFF#16, O, O), (0x8001#16, O, I), (0x7FFF#16, O, O), (0x8000#16, O, I), (0xFFFF#16, O, I)].map some := by decide +kernel

/-- L2-C3: `next` twice restores the phase. -/
theorem test_clock_next_twice :
    (nextOf (exec (.clockNext 0) (with1 .tick ⟨O, O⟩))).map State.clocks = some [.tock] ∧
    (nextOf (exec (.clockNext 0) (with1 .tock ⟨O, O⟩))).map State.clocks = some [.tick] := by decide +kernel
/-- R97. -/
theorem test_clock_phase : outputs [.clockPhase 1] with2 = some (.phase .tock) := by decide +kernel
/-- R95, R98, D18: creation, and its bounds. -/
theorem test_creation :
    (nextOf (exec .clockNew with2)).map State.clocks = some [.tick, .tock, .tick] ∧
    (nextOf (exec .dffNew with2)).map State.dffs = some [⟨O, O⟩, ⟨O, I⟩, ⟨O, O⟩] ∧
    refusalOf (exec .clockNew (State.resetWith ⟨0, 5⟩)) = some .clocksExhausted ∧
    refusalOf (exec .dffNew (State.resetWith ⟨5, 0⟩)) = some .dffsExhausted := by decide +kernel
/-- L2-C7: the second input in one `Tick` commits the first. -/
theorem test_dff_input_tick :
    (nextOf (exec (.dffInput 0 I 0) (with1 .tick ⟨O, O⟩))).map State.dffs = some [⟨O, I⟩] ∧
    (nextOf (exec (.dffInput 0 O 0) (with1 .tick ⟨O, I⟩))).map State.dffs = some [⟨I, O⟩] := by decide +kernel
/-- L2-C6: an input in `Tock` is dropped. -/
theorem test_dff_input_tock : (nextOf (exec (.dffInput 0 I 0) (with1 .tock ⟨O, O⟩))).map State.dffs = some [⟨O, O⟩] := by
  decide +kernel
/-- L2-C4, L2-C5: `output` reads `committed` in `Tick` and `pending` in `Tock`. -/
theorem test_dff_output :
    outputs [.dffOutput 0 0] (with1 .tick ⟨O, I⟩) = some (.bit O) ∧ outputs [.dffOutput 0 0] (with1 .tock ⟨O, I⟩) = some (.bit I) := by
  decide +kernel
/-- L3-1 (corrected, C1): the four reads of the source's scenario from its states. -/
theorem test_source_scenario :
    outputs [.dffInput 0 I 0, .dffOutput 0 0] (with1 .tick ⟨O, O⟩) = some (.bit O) ∧
    outputs [.dffInput 0 I 0, .clockNext 0, .dffInput 0 O 0, .dffOutput 0 0] (with1 .tick ⟨O, O⟩) = some (.bit I) ∧
    outputs [.dffInput 0 I 0, .clockNext 0, .clockNext 0, .dffOutput 0 0] (with1 .tick ⟨O, O⟩) = some (.bit O) := by decide +kernel

/-! The boundary faults: section 2.10. -/

/-- The fault record after one `let`. -/
def faultAfter (e : Expr) : Option (Option (List FaultReason)) :=
  (nextOf (step (named (.cons (.letE .scratch e) .nil)))).map State.fault

/-- L2-F1, L2-F4. -/
theorem test_fault_length :
    faultAfter (.tokens [.zero, .one, .zero, .one]) = some (some [.malformedWordLength 4]) ∧
    faultAfter (.tokens [.zero, .one, .other]) = some (some [.malformedWordLength 3, .malformedWordToken 2]) := by decide +kernel
/-- L2-F3. -/
theorem test_fault_token :
    faultAfter (.tokens (List.replicate 15 .zero ++ [.other])) = some (some [.malformedWordToken 15]) := by decide +kernel
/-- L2-F5, L2-F6. -/
theorem test_fault_number :
    faultAfter (.number 2) = some (some [.bitValueOutOfRange 2]) ∧ faultAfter (.number (-1)) = some (some [.bitValueOutOfRange (-1)]) ∧
    faultAfter (.number 0) = some none ∧ faultAfter (.number 1) = some none := by decide +kernel
/-- L2-F7. -/
theorem test_fault_index :
    faultAfter (.index (.word 1#16) 16) = some (some [.indexOutOfRange 16]) ∧ faultAfter (.index (.word 1#16) 15) = some none := by
  decide +kernel
/-- L2-F8: the fault leaves the DFF and the Clock as they were. -/
theorem test_fault_is_precise :
    (nextOf (step { with1 .tick ⟨O, I⟩ with program := .cons (.letE .scratch (.tokens [.zero, .one, .zero, .one])) .nil })).map
      (fun t => (t.dffs, t.clocks)) = some ([⟨O, I⟩], [.tick]) := by decide +kernel

/-! The driver. -/

/-- L3-4: `ALU(x, y, #010011)` with `x = 5`, `y = 7`, and `Mux16(d.out, n.out, d.ng)` picks `n.out`. -/
theorem test_let_alu :
    (nextOf (step (named (.cons (.letE .scratch (.port (.call 19 (.cons (.word 5#16) (.cons (.word 7#16) .nil))) .out)) .nil)))).map
      State.out = some (.word 0xFFFE#16) := by decide +kernel
/-- R39, R44: `let p = phase C`, then `p.phase`; a port the result lacks is refused. -/
theorem test_phase_port :
    (nextOf (step (named (.cons (.letE .scratch (.port (.phase (.plain 0)) .phase)) .nil)))).map State.out = some (.phase .tick) ∧
    refusalOf (step (named (.cons (.letE .scratch (.port (.phase (.plain 0)) .out)) .nil))) = some .wrongKind := by decide +kernel
/-- A component called with a selector of another length is refused (D24), and so is an unbound name (log entry 6). -/
theorem test_driver_refusals :
    refusalOf (step (named (.cons (.letE .scratch (.call 78 (.cons (.bit I) (.cons (.bit I) .nil)))) .nil))) =
      some (.wrongArguments 78) ∧
    refusalOf (step (named (.cons (.next (.plain 9)) .nil))) = some (.unboundName (.plain 9)) ∧
    refusalOf (step (named (.cons (.next (.plain 1)) .nil))) = some .wrongKind ∧
    refusalOf (step (named (.cons (.letE .scratch (.call 84 .nil)) .nil))) = some (.notComponent 84) ∧
    refusalOf (step (named (.cons (.op ⟨90, [], []⟩) .nil))) = some (.encoding (.unknownBlock 90)) := by decide +kernel
/-- The pseudo-statements of R44 have 16, 17 and 16 parts. -/
theorem test_pseudo_statements : (dff16 0).length = 16 ∧ (input16 0 (.word 1#16) .scratch).length = 17 := by decide
/-- The host's placement from reset: the packed code `111111` runs as the first instruction and gives 1. -/
theorem test_placed_word_runs : (nextOf (step (State.reset.withFetchWord 8 63))).map State.out = some (.alu 1#16 O O) := by
  decide +kernel
/-- The machine the host runs begins empty. -/
theorem test_core_reset : Sys2Proof.core.reset = State.reset := rfl

/-! Witnesses: each shows a state and operands that meet all hypotheses of a statement, clause by clause, at the edge of a range. -/

/-- The smallest bounds, for the statements about every bound. -/
theorem witness_ResetMeetsTheInvariant : Inv (State.resetWith ⟨0, 0⟩) := by
  constructor <;> decide
theorem witness_AluCodesThatComputeOneFunction : (63 < 64 ∧ 0 < 64) ∧ (aluWord 63 0 0 = some 1#16) := by decide +kernel
theorem witness_AluFlagsAreDerivedFromTheOutput :
    ∃ (t : State) (out : Word) (zr ng : Bit), exec (.aluNegOne 0 0) State.reset = .next t ∧ t.out = .alu out zr ng :=
  ⟨_, _, _, _, rfl, rfl⟩
theorem witness_ComponentsArePureFunctions : (encode (.inc16 0)).row < 84 ∧ (encode (.aluXAndY 0 0)).row < 84 := by decide +kernel
theorem witness_ClockNewCreatesAClockInTick :
    (State.resetWith ⟨1, 0⟩).clocks.length < (State.resetWith ⟨1, 0⟩).config.numClocks ∧
    (State.resetWith ⟨0, 0⟩).config.numClocks ≤ (State.resetWith ⟨0, 0⟩).clocks.length := by decide
theorem witness_ClockNextTogglesThePhase :
    with2.clocks[0]? = some .tick ∧ with2.clocks[1]? = some .tock ∧ 1 < with2.clocks.length := by decide
theorem witness_ClockPhaseReadsThePhase : with2.clocks[1]? = some .tock := by decide
theorem witness_DffNewCreatesAClearedDff :
    (State.resetWith ⟨0, 1⟩).dffs.length < (State.resetWith ⟨0, 1⟩).config.numDffs ∧
    (State.resetWith ⟨0, 0⟩).config.numDffs ≤ (State.resetWith ⟨0, 0⟩).dffs.length := by decide
theorem witness_DffInputInTickCommitsThenLatches : with2.dffs[1]? = some ⟨O, I⟩ ∧ with2.clocks[0]? = some .tick := by decide
theorem witness_DffInputInTockDoesNothing : with2.dffs[1]? = some ⟨O, I⟩ ∧ with2.clocks[1]? = some .tock := by decide
theorem witness_DffOutputReadsTheVisibleField :
    with2.dffs[1]? = some ⟨O, I⟩ ∧ with2.clocks[0]? = some .tick ∧ with2.clocks[1]? = some .tock := by decide
theorem witness_EveryInputInATickCommits : with2.dffs[1]? = some ⟨O, I⟩ ∧ with2.clocks[0]? = some .tick := by decide
theorem witness_OneInputPerTickDelaysByOneCycle : with2.dffs[0]? = some ⟨O, O⟩ ∧ with2.clocks[0]? = some .tick := by decide
theorem witness_OnlyInputChangesADff :
    ∃ t : State, exec (.clockNext 0) with2 = .next t ∧ 1 < with2.dffs.length ∧ ∀ v c, Instr.clockNext 0 ≠ .dffInput 1 v c :=
  ⟨{ with2 with clocks := [.tock, .tock], out := .nothing }, rfl, by decide, by intros; simp⟩
theorem witness_OnlyNextChangesAClock :
    ∃ t : State, exec (.clockNext 0) with2 = .next t ∧ 1 < with2.clocks.length ∧ Instr.clockNext 0 ≠ .clockNext 1 :=
  ⟨{ with2 with clocks := [.tock, .tock], out := .nothing }, rfl, by decide, by decide⟩
theorem witness_TheHiddenFieldIsNotObserved :
    with2.dffs[1]? = some ⟨O, I⟩ ∧ with2.clocks[0]? = some .tick ∧ with2.clocks[1]? = some .tock := by decide
theorem witness_OperationsOnDifferentInstancesCommute :
    (0 < with2.dffs.length ∧ 1 < with2.dffs.length ∧ 0 < with2.clocks.length ∧ 1 < with2.clocks.length) ∧ (0 : Nat) ≠ 1 ∧
    with2.clocks.length < with2.config.numClocks ∧ with2.dffs.length < with2.config.numDffs := by decide
theorem witness_MissingInstancesAreRefused :
    with2.clocks.length ≤ 2 ∧ with2.dffs.length ≤ 2 ∧ 1 < with2.dffs.length ∧ State.reset.clocks.length ≤ 0 := by decide
theorem witness_NoInstructionFaults :
    exec (.clockPhase 1) with2 = .next { with2 with out := .phase .tock } := rfl
theorem witness_NoInstructionChangesTheDriver :
    exec (.nand O O) State.reset = .next { State.reset with out := .bit I } := rfl
theorem witness_InstancesPersist :
    step { State.reset with program := .cons (.op ⟨84, [], []⟩) .nil } =
      .next { State.reset with clocks := [.tick], out := .clock 0 } := rfl
theorem witness_AFaultIsPreciseAndTerminal :
    (step (named (.cons (.letE .scratch (.number 2)) .nil)) = .next { named .nil with fault := some [.bitValueOutOfRange 2] } ∧
      some [FaultReason.bitValueOutOfRange 2] ≠ none) ∧
    ({ State.reset with fault := some [.indexOutOfRange 16] } : State).fault = some [.indexOutOfRange 16] :=
  ⟨⟨rfl, by decide⟩, rfl⟩
theorem witness_EveryStepKeepsTheInvariant :
    Inv { State.resetWith ⟨1, 0⟩ with program := .cons (.clock .scratch) .nil } ∧
    step { State.resetWith ⟨1, 0⟩ with program := .cons (.clock .scratch) .nil } =
      .next { State.resetWith ⟨1, 0⟩ with clocks := [.tick], out := .clock 0, env := [(.scratch, .clock 0)] } :=
  ⟨by constructor <;> decide, rfl⟩
theorem witness_AStepRunsTheDecodedInstruction :
    (State.reset.withFetchWord 8 58).fault = none ∧
    (State.reset.withFetchWord 8 58).program = .cons (.op (encode (.aluNegOne 0 0))) .nil ∧
    decode (encode (.aluNegOne 0 0)) = .ok (.aluNegOne 0 0) := by decide +kernel
theorem witness_APlacedTableWordRunsNext :
    State.reset.fault = none ∧ decodeTableWord 8 58 = some (.aluNegOne 0 0) := by decide +kernel
theorem witness_StatementsIssueTheirOperations_clock :
    (named (.cons (.clock .scratch) .nil)).fault = none ∧ (named (.cons (.clock .scratch) .nil)).program = .cons (.clock .scratch) .nil ∧
    (named .nil).clocks.length < (named .nil).config.numClocks := by decide
theorem witness_StatementsIssueTheirOperations_dff :
    (named (.cons (.dff .scratch) .nil)).fault = none ∧ (named (.cons (.dff .scratch) .nil)).program = .cons (.dff .scratch) .nil ∧
    (named .nil).dffs.length < (named .nil).config.numDffs := by decide
theorem witness_StatementsIssueTheirOperations_next :
    (named (.cons (.next (.plain 0)) .nil)).fault = none ∧
    (named (.cons (.next (.plain 0)) .nil)).program = .cons (.next (.plain 0)) .nil ∧
    (named .nil).value? (.plain 0) = some (.clock 0) := by decide
theorem witness_StatementsIssueTheirOperations_input :
    (named (.cons (.input (.plain 1) (.bit I) (.plain 0)) .nil)).fault = none ∧
    (named (.cons (.input (.plain 1) (.bit I) (.plain 0)) .nil)).program = .cons (.input (.plain 1) (.bit I) (.plain 0)) .nil ∧
    (named .nil).value? (.plain 1) = some (.dff 0) ∧ (named .nil).value? (.plain 0) = some (.clock 0) ∧
    evalBit (named .nil) (.bit I) = .ok I := by decide +kernel
theorem witness_LetBindsAComponentsOutputs :
    (named (.cons (.letE .scratch (.call 64 (.cons (.bit O) (.cons (.bit I) .nil)))) .nil)).fault = none ∧
    evalArgs (named .nil) (.cons (.bit O) (.cons (.bit I) .nil)) = .ok [[O], [I]] ∧ 64 < 84 ∧
    rowShape 64 = some ⟨0, [1, 1]⟩ ∧ [[O], [I]].map List.length = [1, 1] ∧
    decode ⟨64, [], [[O], [I]].flatten⟩ = .ok (.nand O I) ∧
    exec (.nand O I) (named .nil) = .next { named .nil with out := .bit I } :=
  ⟨rfl, rfl, by decide, rfl, rfl, rfl, rfl⟩
theorem witness_AWordLiteralIsReadOrFaults :
    ((List.replicate 16 Token.one).length = 16 ∧ Token.other ∉ List.replicate 16 Token.one) ∧
    ((List.replicate 17 Token.one).length ≠ 16 ∧ Token.other ∉ List.replicate 17 Token.one) ∧
    ((List.replicate 15 Token.zero ++ [Token.other])[15]? = some Token.other ∧
      Token.other ∉ (List.replicate 15 Token.zero ++ [Token.other]).take 15 ∧
      (List.replicate 15 Token.zero ++ [Token.other]).length = 16) ∧
    ([Token.other][0]? = some Token.other ∧ Token.other ∉ [Token.other].take 0 ∧ [Token.other].length ≠ 16) ∧
    (named (.cons (.letE .scratch (.tokens [.other])) .nil)).fault = none ∧
    (named (.cons (.letE .scratch (.tokens [.other])) .nil)).program = .cons (.letE .scratch (.tokens [.other])) .nil := by decide
theorem witness_ABitFromANumberIsReadOrFaults :
    (named (.cons (.letE .scratch (.number 2)) .nil)).fault = none ∧
    (named (.cons (.letE .scratch (.number 2)) .nil)).program = .cons (.letE .scratch (.number 2)) .nil ∧
    ((2 : Int) ≠ 0 ∧ (2 : Int) ≠ 1) ∧ ((-1 : Int) ≠ 0 ∧ (-1 : Int) ≠ 1) := by decide
theorem witness_AnIndexOutsideAWordFaults :
    (named (.cons (.letE .scratch (.index (.word 1#16) 16)) .nil)).fault = none ∧
    (named (.cons (.letE .scratch (.index (.word 1#16) 16)) .nil)).program = .cons (.letE .scratch (.index (.word 1#16) 16)) .nil ∧
    eval (named .nil) (.word 1#16) = .ok (.word 1#16) ∧ 15 ≤ 15 ∧ 16 ≤ 16 := by decide +kernel
theorem witness_RepeatAndIfChooseWhatRunsNext :
    (named (.cons (.loop 0 .nil) .nil)).program = .cons (.loop 0 .nil) .nil ∧
    (named (.cons (.loop 1 .nil) .nil)).program = .cons (.loop (0 + 1) .nil) .nil ∧
    (named (.cons (.ifElse (.bit I) .nil .nil) .nil)).program = .cons (.ifElse (.bit I) .nil .nil) .nil ∧
    evalBit (named .nil) (.bit I) = .ok I ∧ evalBit (named .nil) (.bit O) = .ok O ∧ (named .nil).fault = none := by decide +kernel
theorem witness_APortSelectsAnOutput :
    (∀ v : Value, (named .nil |>.bind .scratch v).value? .scratch = some v) ∧
    [I, O][1]? = some O ∧ [I, O].length ≤ 2 := ⟨fun _ => by simp [State.value?, State.bind], by decide, by decide⟩
/-- Sixteen DFFs called `R[0]` to `R[15]`, after 95_test_vectors.md L3-2's `dff16 R` and `clock c`. -/
def with16 : State :=
  { State.reset with
    clocks := [.tick]
    dffs := List.replicate 16 ⟨O, O⟩
    env := (.plain 0, .clock 0) :: (List.range 16).map (fun k => (.elem 0 k, .dff k)) }
theorem witness_Output16ReadsSixteenDffs :
    with16.value? (.plain 0) = some (.clock 0) ∧ with16.clocks[0]? = some .tick ∧ (List.range 16).length = 16 ∧
    (List.replicate 16 (⟨O, O⟩ : Dff)).length = 16 ∧
    (∀ k : Nat, k < 16 → with16.value? (.elem 0 k) = (List.range 16)[k]?.map Value.dff) ∧
    (∀ d : Nat, d < 16 → with16.dffs[d]? = (List.replicate 16 (⟨O, O⟩ : Dff))[d]?) := by decide +kernel
theorem witness_AnEmptyProgramChangesNothing : State.reset.fault = none ∧ State.reset.program = .nil := by decide
theorem witness_EncodeUndoesDecode : decode ⟨88, [4, 7], [I]⟩ = .ok (.dffInput 4 I 7) := by decide +kernel
theorem witness_ExactlyWellFormedOperationsDecode :
    90 ≤ (⟨90, [], []⟩ : Encoded).row ∧
    (rowShape 64 = some ⟨0, [1, 1]⟩ ∧ ([] : List Nat).length = 0 ∧ [I].length ≠ [1, 1].sum) := by decide

end Sys2Proof.Tests
end

/-! Scope: instances persist (R24), every step keeps the invariant (R5, R103, R107), and what creating a Clock or a DFF
does (R95, R98). -/

namespace Sys2Proof.Machine

/-! Persistence: what no operation of the machine takes away (R5, R24). -/

/-- Every Clock and DFF of `s` still exists in `t`, under the same bounds (R5, R24). -/
structure Persists (s t : State) : Prop where
  clocks : s.clocks.length ≤ t.clocks.length
  dffs : s.dffs.length ≤ t.dffs.length
  config : t.config = s.config

theorem Persists.refl (s : State) : Persists s s := ⟨le_rfl, le_rfl, rfl⟩

theorem Persists.trans {s t u : State} (hst : Persists s t) (htu : Persists t u) : Persists s u :=
  ⟨hst.clocks.trans htu.clocks, hst.dffs.trans htu.dffs, htu.config.trans hst.config⟩

theorem setOut_persists (s : State) (v : Value) : Persists s (s.setOut v) := ⟨le_rfl, le_rfl, rfl⟩

theorem bind_persists (s : State) (n : Name) (v : Value) : Persists s (s.bind n v) := ⟨le_rfl, le_rfl, rfl⟩

theorem setProgram_persists (s : State) (p : Prog) : Persists s (s.setProgram p) := ⟨le_rfl, le_rfl, rfl⟩

theorem enterFault_persists (s : State) (causes : List FaultReason) : Persists s (s.enterFault causes) :=
  ⟨le_rfl, le_rfl, rfl⟩

theorem addClock_persists (s : State) : Persists s s.addClock := ⟨by simp, le_rfl, rfl⟩

theorem addDff_persists (s : State) : Persists s s.addDff := ⟨le_rfl, by simp, rfl⟩

theorem setClock_persists (s : State) (c : Nat) (p : Phase) : Persists s (s.setClock c p) := ⟨by simp, le_rfl, rfl⟩

theorem setDff_persists (s : State) (d : Nat) (f : Dff) : Persists s (s.setDff d f) := ⟨le_rfl, by simp, rfl⟩

/-- No instruction destroys a Clock or a DFF (R24). -/
theorem exec_persists {i : Instr} {s t : State} (h : exec i s = .next t) : Persists s t := by
  cases exec_cases h with
  | read v _ eq => exact eq ▸ setOut_persists s v
  | newClock _ _ eq => exact eq ▸ (addClock_persists s).trans (setOut_persists _ _)
  | tickClock c p _ _ eq => exact eq ▸ (setClock_persists s c _).trans (setOut_persists _ _)
  | newDff _ _ eq => exact eq ▸ (addDff_persists s).trans (setOut_persists _ _)
  | writeDff d b c f p _ _ _ eq => exact eq ▸ (setDff_persists s d _).trans (setOut_persists _ _)

/-- No driver statement destroys a Clock or a DFF (R24). -/
theorem runStmt_persists {st : Stmt} {s t : State} (h : runStmt st s = .next t) : Persists s t := by
  cases runStmt_cases h with
  | issued i run => exact exec_persists run
  | created i n u run eq => exact eq ▸ (exec_persists run).trans (bind_persists u n _)
  | bound n v _ eq => exact eq ▸ (setOut_persists s v).trans (bind_persists _ n v)
  | chose p eq => exact eq ▸ setProgram_persists s p
  | faulted causes _ eq => exact eq ▸ enterFault_persists s causes

theorem step_persists {s t : State} (h : step s = .next t) : Persists s t := by
  obtain ⟨-, ⟨-, rfl⟩ | ⟨st, rest, -, run⟩⟩ := step_cases h
  · exact .refl t
  · exact (setProgram_persists s rest).trans (runStmt_persists run)

/-! The invariant, one lemma per operation of the state. -/

/-- A value that refers only to instances of `s` does so wherever those persist (R24). -/
theorem refsExist_of_persists {s t : State} {v : Value} (hp : Persists s t) (hv : refsExist s v = true) :
    refsExist t v = true := by
  cases v with
  | clock c => simpa [refsExist] using (of_decide_eq_true hv).trans_le hp.clocks
  | dff d => simpa [refsExist] using (of_decide_eq_true hv).trans_le hp.dffs
  | _ => rfl

/-- The invariant of a later state `t`, its names and outputs checked against the instances of the earlier `s`. -/
theorem inv_of_persists {s t : State} (hp : Persists s t) (clocks : t.clocks.length ≤ t.config.numClocks)
    (dffs : t.dffs.length ≤ t.config.numDffs) (fault : faultLegal t = true)
    (names : ∀ b ∈ t.env, refsExist s b.2 = true) (out : refsExist s t.out = true) : Inv t :=
  ⟨clocks, dffs, fault, fun b hb => refsExist_of_persists hp (names b hb), refsExist_of_persists hp out⟩

/-- Under the invariant, what a driver name stands for exists (R23). -/
theorem refsExist_value? {s : State} {n : Name} {v : Value} (h : Inv s) (hv : s.value? n = some v) :
    refsExist s v = true :=
  h.namesExist (n, v) (State.value?_mem hv)

theorem setOut_inv {s : State} {v : Value} (h : Inv s) (hv : refsExist s v = true) : Inv (s.setOut v) :=
  inv_of_persists (setOut_persists s v) h.clocksBounded h.dffsBounded h.faultLegal h.namesExist hv

theorem bind_inv {s : State} (n : Name) {v : Value} (h : Inv s) (hv : refsExist s v = true) : Inv (s.bind n v) := by
  refine inv_of_persists (bind_persists s n v) h.clocksBounded h.dffsBounded h.faultLegal (fun b hb => ?_) h.outExists
  rcases List.mem_cons.mp hb with rfl | old
  · exact hv
  · exact h.namesExist b (List.mem_of_mem_filter old)

theorem setProgram_inv {s : State} (p : Prog) (h : Inv s) : Inv (s.setProgram p) :=
  inv_of_persists (setProgram_persists s p) h.clocksBounded h.dffsBounded h.faultLegal h.namesExist h.outExists

theorem enterFault_inv {s : State} {causes : List FaultReason} (h : Inv s) (legal : causesLegal causes = true) :
    Inv (s.enterFault causes) :=
  inv_of_persists (enterFault_persists s causes) h.clocksBounded h.dffsBounded legal h.namesExist h.outExists

/-- Creating a Clock keeps the invariant where the bound leaves room for it (R95, D18). -/
theorem addClock_inv {s : State} (h : Inv s) (room : s.clocks.length < s.config.numClocks) : Inv s.addClock :=
  inv_of_persists (addClock_persists s) (by simpa using room) h.dffsBounded h.faultLegal h.namesExist h.outExists

/-- Creating a DFF keeps the invariant where the bound leaves room for it (R98, D18). -/
theorem addDff_inv {s : State} (h : Inv s) (room : s.dffs.length < s.config.numDffs) : Inv s.addDff :=
  inv_of_persists (addDff_persists s) h.clocksBounded (by simpa using room) h.faultLegal h.namesExist h.outExists

theorem setClock_inv {s : State} (c : Nat) (p : Phase) (h : Inv s) : Inv (s.setClock c p) :=
  inv_of_persists (setClock_persists s c p) (by simpa using h.clocksBounded) h.dffsBounded h.faultLegal h.namesExist
    h.outExists

theorem setDff_inv {s : State} (d : Nat) (f : Dff) (h : Inv s) : Inv (s.setDff d f) :=
  inv_of_persists (setDff_persists s d f) h.clocksBounded (by simpa using h.dffsBounded) h.faultLegal h.namesExist
    h.outExists

/-- Every instruction keeps the invariant: only the two creations put a Clock or a DFF in the outputs, and it is the one
just made. -/
theorem exec_inv {i : Instr} {s t : State} (h : Inv s) (run : exec i s = .next t) : Inv t := by
  cases exec_cases run with
  | read v free eq => exact eq ▸ setOut_inv h (free s)
  | newClock _ room eq => exact eq ▸ setOut_inv (addClock_inv h room) (by simp [refsExist])
  | tickClock c p _ _ eq => exact eq ▸ setOut_inv (setClock_inv c _ h) rfl
  | newDff _ room eq => exact eq ▸ setOut_inv (addDff_inv h room) (by simp [refsExist])
  | writeDff d b c f p _ _ _ eq => exact eq ▸ setOut_inv (setDff_inv d _ h) rfl

/-- Every driver statement keeps the invariant: a name is bound to an operation's outputs, to a value that refers to
no Clock or DFF, or to what another name already stands for. -/
theorem runStmt_inv {st : Stmt} {s t : State} (h : Inv s) (run : runStmt st s = .next t) : Inv t := by
  cases runStmt_cases run with
  | issued i run => exact exec_inv h run
  | created i n u run eq =>
    have hu : Inv u := exec_inv h run
    exact eq ▸ bind_inv n hu hu.outExists
  | bound n v value eq =>
    have hv : refsExist s v = true := value.elim (fun free => free s) fun ⟨_, hm⟩ => refsExist_value? h hm
    have ht : Inv (s.setOut v) := setOut_inv h hv
    exact eq ▸ bind_inv n ht ht.outExists
  | chose p eq => exact eq ▸ setProgram_inv p h
  | faulted causes legal eq => exact eq ▸ enterFault_inv h legal

/-- Settles O40: a step runs nothing, or one driver statement with the program set to what follows it. -/
theorem everyStepKeepsTheInvariant : Obligations.EveryStepKeepsTheInvariant := by
  intro s t h hstep
  obtain ⟨-, ⟨-, rfl⟩ | ⟨st, rest, -, run⟩⟩ := step_cases hstep
  · exact h
  · exact runStmt_inv (setProgram_inv rest h) run

/-- Settles O38: each operation of the state adds instances or keeps their number, and none writes the configuration. -/
theorem instancesPersist : Obligations.InstancesPersist := by
  intro s t hstep
  obtain ⟨clocks, dffs, config⟩ := step_persists hstep
  exact ⟨clocks, dffs, config⟩

/-! Creating a Clock or a DFF, on each side of its bound (R95, R98, D18). -/

theorem execClockNew_of_room {s : State} (room : s.clocks.length < s.config.numClocks) :
    execClockNew s = s.addClock.complete (.clock s.clocks.length) :=
  if_pos room

theorem execClockNew_of_full {s : State} (full : s.config.numClocks ≤ s.clocks.length) :
    execClockNew s = .refused .clocksExhausted :=
  if_neg full.not_gt

theorem execDffNew_of_room {s : State} (room : s.dffs.length < s.config.numDffs) :
    execDffNew s = s.addDff.complete (.dff s.dffs.length) :=
  if_pos room

theorem execDffNew_of_full {s : State} (full : s.config.numDffs ≤ s.dffs.length) :
    execDffNew s = .refused .dffsExhausted :=
  if_neg full.not_gt

/-- Settles O22: `addClock` appends a Clock in `newPhase`, which is `Tick`. -/
theorem clockNewCreatesAClockInTick : Obligations.ClockNewCreatesAClockInTick :=
  fun _ => ⟨execClockNew_of_room, execClockNew_of_full⟩

/-- Settles O25: `addDff` appends `newDff`, whose fields are both `O`. -/
theorem dffNewCreatesAClearedDff : Obligations.DffNewCreatesAClearedDff :=
  fun _ => ⟨execDffNew_of_room, execDffNew_of_full⟩

end Sys2Proof.Machine

/-! State and observation: what each instruction leaves unchanged (R13, R16, R17, R34), that a component is a function of its
inputs (R19, R31), what the ALU's flags are (R20), what a DFF hides (R22), and the boundary literals (R14, R15, R103). -/

namespace Sys2Proof.Machine

open Sys2Proof.Bit Sys2Proof.Statements

/-! The frame of one instruction, by the five things it can do (R13, R16, R17, R34). -/

/-- Settles O31: a read, `Clock.new` and `Clock.next` write no DFF, `DFF.new` appends one, and `DFF.input` writes one other
than `d`. -/
theorem onlyInputChangesADff : Obligations.OnlyInputChangesADff := by
  intro i s t d h hd notInput
  cases exec_cases h with
  | read v _ eq => simp [eq]
  | newClock _ _ eq => simp [eq]
  | tickClock c p _ _ eq => simp [eq]
  | newDff _ _ eq => simp [eq, List.getElem?_append_left hd]
  | writeDff d' b c f p instr _ _ eq =>
    have hne : d' ≠ d := fun e => notInput b c (e ▸ instr)
    simp [eq, List.getElem?_set_ne hne]

/-- Settles O32: `Clock.new` appends a Clock, `Clock.next` writes one other than `c`, and nothing else writes a Clock. -/
theorem onlyNextChangesAClock : Obligations.OnlyNextChangesAClock := by
  intro i s t c h hc notNext
  cases exec_cases h with
  | read v _ eq => simp [eq]
  | newClock _ _ eq => simp [eq, List.getElem?_append_left hc]
  | tickClock c' p instr _ eq =>
    have hne : c' ≠ c := fun e => notNext (e ▸ instr)
    simp [eq, List.getElem?_set_ne hne]
  | newDff _ _ eq => simp [eq]
  | writeDff d b c' f p _ _ _ eq => simp [eq]

/-- Settles O37: each of the five things an instruction can do writes Clocks, DFFs or the outputs alone. -/
theorem noInstructionChangesTheDriver : Obligations.NoInstructionChangesTheDriver := by
  intro i s t h
  cases exec_cases h with
  | read v _ eq => simp [eq]
  | newClock _ _ eq => simp [eq]
  | tickClock c p _ _ eq => simp [eq]
  | newDff _ _ eq => simp [eq]
  | writeDff d b c f p _ _ _ eq => simp [eq]

/-! Components as functions of their inputs, and the ALU's flags (R19, R20, R31, R73, R74). -/

/-- Settles O21: every ALU code and every component is one `complete` of a value built from its operands alone; the six
events have rows 84 to 89. -/
theorem componentsArePureFunctions : Obligations.ComponentsArePureFunctions := by
  intro i hrow
  cases i with
  | clockNew | clockNext c | clockPhase c | dffNew | dffInput d b c | dffOutput d c => simp [encode] at hrow
  | _ => exact ⟨_, fun _ => rfl⟩

/-- The outputs with the flags computed again from the output Word; outputs of any other kind as they are. -/
def withFlags (v : Value) : Value :=
  match v with
  | .alu out _ _ => .alu out (zeroFlag out) (negFlag out)
  | v => v

/-- ALU outputs that `withFlags` keeps carry the flags of their output Word. -/
theorem withFlags_alu_eq_self {out : Word} {zr ng : Bit} :
    withFlags (.alu out zr ng) = .alu out zr ng ↔ zr = zeroFlag out ∧ ng = negFlag out := by
  simp [withFlags, eq_comm]

theorem complete_withFlags {s t : State} {v : Value} (hv : withFlags v = v) (h : s.complete v = .next t) :
    withFlags t.out = t.out := by
  rw [complete_next h]
  exact hv

/-- Whatever instruction completes, its outputs carry the flags of their output Word: the ALU codes compute them so, and no
other instruction has ALU outputs. -/
theorem exec_withFlags {i : Instr} {s t : State} (h : exec i s = .next t) : withFlags t.out = t.out := by
  cases i with
  | clockNew | dffNew =>
    simp only [exec, execClockNew, execDffNew] at h
    split at h
    · exact complete_withFlags rfl h
    · cases h
  | clockNext c | clockPhase c =>
    obtain ⟨p, -, h⟩ := withClock_next h
    exact complete_withFlags rfl h
  | dffInput d b c | dffOutput d c =>
    obtain ⟨f, -, h⟩ := withDff_next h
    obtain ⟨p, -, h⟩ := withClock_next h
    exact complete_withFlags rfl h
  | _ => exact complete_withFlags rfl h

theorem zeroFlag_iff (w : Word) : zeroFlag w = I ↔ uval w = 0 := by
  simp [zeroFlag_eq_uval]

/-- `ng` in the unsigned view (R74). -/
theorem negFlag_iff (w : Word) : negFlag w = I ↔ 0x8000 ≤ uval w := by
  simp [negFlag_eq, BitVec.msb_eq_decide, uval]

/-- Settles O20: the flags are `zeroFlag` and `negFlag` of the output Word, and zero is below `0x8000`. -/
theorem aluFlagsAreDerivedFromTheOutput : Obligations.AluFlagsAreDerivedFromTheOutput := by
  intro i s t out zr ng h hout
  have flags : withFlags t.out = t.out := exec_withFlags h
  rw [hout] at flags
  obtain ⟨rfl, rfl⟩ := withFlags_alu_eq_self.mp flags
  refine ⟨zeroFlag_iff out, negFlag_iff out, rfl, ?_⟩
  rw [zeroFlag_iff, negFlag_iff]
  omega

/-! What `DFF.output` shows (R22, R101). -/

/-- `DFF.output` completes with the field that the passed Clock's phase makes visible (R101). -/
theorem exec_dffOutput {s : State} {d c : Nat} {f : Dff} {p : Phase} (hf : s.dffs[d]? = some f)
    (hp : s.clocks[c]? = some p) : exec (.dffOutput d c) s = s.complete (.bit (dffVisible p f)) :=
  (withDff_eq hf _).trans (withClock_eq hp _)

/-- The outputs of one instruction that completes. -/
theorem outputs_singleton {i : Instr} {s t : State} (h : exec i s = .next t) : outputs [i] s = some t.out := by
  simp [outputs, runAll, andThen, h]

theorem outputs_dffOutput {s : State} {d c : Nat} {f : Dff} {p : Phase} (hf : s.dffs[d]? = some f)
    (hp : s.clocks[c]? = some p) : outputs [.dffOutput d c] s = some (.bit (dffVisible p f)) :=
  outputs_singleton (exec_dffOutput hf hp)

/-- Two contents of a DFF that look the same in the passed Clock's phase give `DFF.output` the same outputs (R22). -/
theorem outputs_dffOutput_setDff {s : State} {d c : Nat} {f g : Dff} {p : Phase} (hf : s.dffs[d]? = some f)
    (hp : s.clocks[c]? = some p) (same : dffVisible p g = dffVisible p f) :
    outputs [.dffOutput d c] (s.setDff d g) = outputs [.dffOutput d c] s := by
  obtain ⟨hd, -⟩ := List.getElem?_eq_some_iff.mp hf
  have hg : (s.setDff d g).dffs[d]? = some g := List.getElem?_set_self hd
  rw [outputs_dffOutput hg hp, outputs_dffOutput hf hp, same]

/-- Settles O33: `dffVisible` reads `committed` in `Tick` and `pending` in `Tock`, so a write to the other field keeps it. -/
theorem theHiddenFieldIsNotObserved : Obligations.TheHiddenFieldIsNotObserved := by
  intro s d c f b hf
  exact ⟨fun tick => outputs_dffOutput_setDff hf tick rfl, fun tock => outputs_dffOutput_setDff hf tock rfl⟩

/-! A `let` statement as one step, and the boundary literals in it (R14, R15, R44, R103, R105). -/

/-- A `let` whose expression has a value binds the name to it. -/
theorem step_let_ok {s : State} {rest : Prog} {n : Name} {e : Expr} {v : Value} (hf : s.fault = none)
    (hp : s.program = .cons (.letE n e) rest) (hv : eval (s.setProgram rest) e = .ok v) :
    step s = .next (((s.setProgram rest).setOut v).bind n v) := by
  rw [step_cons hf hp, runStmt, runLet, hv]

/-- A `let` whose expression faults enters the fault state with its causes (R105). -/
theorem step_let_fault {s : State} {rest : Prog} {n : Name} {e : Expr} {causes : List FaultReason} (hf : s.fault = none)
    (hp : s.program = .cons (.letE n e) rest) (he : eval (s.setProgram rest) e = .error (.fault causes)) :
    step s = .next ((s.setProgram rest).enterFault causes) := by
  rw [step_cons hf hp, runStmt, runLet, he]
  rfl

theorem bitOfNumber_of_ne {k : Int} (h0 : k ≠ 0) (h1 : k ≠ 1) : bitOfNumber k = .error [.bitValueOutOfRange k] := by
  simp [bitOfNumber, h0, h1]

theorem eval_number (s : State) (k : Int) : eval s (.number k) = atBoundary .bit (bitOfNumber k) := by
  rw [eval]

theorem readIndex_of_le {w : Word} {i : Nat} (h : i ≤ 15) : readIndex w i = .ok (bit w i) :=
  if_pos (Nat.lt_succ_of_le h)

theorem readIndex_of_ge {w : Word} {i : Nat} (h : 16 ≤ i) : readIndex w i = .error [.indexOutOfRange i] :=
  if_neg h.not_gt

theorem eval_index {s : State} {e : Expr} {w : Word} (i : Nat) (he : eval s e = .ok (.word w)) :
    eval s (.index e i) = atBoundary .bit (readIndex w i) := by
  simp [eval, he, valueWord]

/-- Settles O48: `bitOfNumber` has a value at 0 and at 1 and faults with the number everywhere else. -/
theorem aBitFromANumberIsReadOrFaults : Obligations.ABitFromANumberIsReadOrFaults := by
  intro s rest n k hf hp
  have hk : eval (s.setProgram rest) (.number k) = atBoundary .bit (bitOfNumber k) := eval_number _ k
  refine ⟨?_, ?_, fun h0 h1 => ?_⟩
  · rintro rfl
    exact step_let_ok hf hp hk
  · rintro rfl
    exact step_let_ok hf hp hk
  · rw [bitOfNumber_of_ne h0 h1] at hk
    exact step_let_fault hf hp hk

/-- Settles O49: `readIndex` reads the Bit up to index 15 and faults with the index from 16 on. -/
theorem anIndexOutsideAWordFaults : Obligations.AnIndexOutsideAWordFaults := by
  intro s rest n e w i hf hp hw
  have hi : eval (s.setProgram rest) (.index e i) = atBoundary .bit (readIndex w i) := eval_index i hw
  constructor
  · intro hle
    rw [readIndex_of_le hle] at hi
    exact step_let_ok hf hp hi
  · intro hge
    rw [readIndex_of_ge hge] at hi
    exact step_let_fault hf hp hi

end Sys2Proof.Machine

/-! Memory: operations on different instances commute (R28, R30), and what one step of the driver runs (R30, R44). -/

namespace Sys2Proof.Machine

open Sys2Proof.Statements

/-! Each event on instances that exist (R96, R97, R99, R100); `DFF.output` is `exec_dffOutput`. -/

theorem exec_clockNext {s : State} {c : Nat} {p : Phase} (hp : s.clocks[c]? = some p) :
    exec (.clockNext c) s = (s.setClock c (phaseNext p)).complete .nothing :=
  withClock_eq hp _

theorem exec_clockPhase {s : State} {c : Nat} {p : Phase} (hp : s.clocks[c]? = some p) :
    exec (.clockPhase c) s = s.complete (.phase p) :=
  withClock_eq hp _

theorem exec_dffInput {s : State} {d c : Nat} {f : Dff} {p : Phase} (v : Bit) (hf : s.dffs[d]? = some f)
    (hp : s.clocks[c]? = some p) :
    exec (.dffInput d v c) s = (s.setDff d (dffAfterInput p v f)).complete .nothing :=
  (withDff_eq hf _).trans (withClock_eq hp _)

/-! Two instructions in order. No instruction reads the outputs of the one before it. -/

theorem exec_setOut (i : Instr) (s : State) (v : Value) : exec i (s.setOut v) = exec i s := by
  cases i <;> rfl

@[simp] theorem runAll_singleton (i : Instr) (s : State) : runAll [i] s = exec i s := by
  cases h : exec i s <;> simp [runAll, andThen, h]

theorem runAll_cons_of_next {i : Instr} {s t : State} (h : exec i s = .next t) (is : List Instr) :
    runAll (i :: is) s = runAll is t := by
  simp [runAll, andThen, h]

theorem runAll_cons_of_refused {i : Instr} {s : State} {r : Refusal} (h : exec i s = .refused r) (is : List Instr) :
    runAll (i :: is) s = .refused r := by
  simp [runAll, andThen, h]

/-- After an instruction that completes in `t`, the next one answers as it does in `t`. -/
theorem runAll_pair_of_complete {i : Instr} {s t : State} {v : Value} (h : exec i s = t.complete v) (j : Instr) :
    runAll [i, j] s = exec j t := by
  rw [runAll_cons_of_next h, runAll_singleton, exec_setOut]

/-- Two instructions give the same state in either order when both orders complete alike. -/
theorem runAll_comm {i j : Instr} {s t t' u : State} {v w o : Value} (hi : exec i s = t.complete v)
    (hj : exec j s = t'.complete w) (hij : exec j t = u.complete o) (hji : exec i t' = u.complete o) :
    runAll [i, j] s = runAll [j, i] s := by
  rw [runAll_pair_of_complete hi, runAll_pair_of_complete hj, hij, hji]

theorem outputs_cons_of_next {i : Instr} {s t : State} (h : exec i s = .next t) (is : List Instr) :
    outputs (i :: is) s = outputs is t := by
  simp [outputs, runAll_cons_of_next h]

/-! Writes to different instances commute (R30). -/

theorem setClock_comm {s : State} {c c' : Nat} (hne : c ≠ c') (p p' : Phase) :
    (s.setClock c p).setClock c' p' = (s.setClock c' p').setClock c p := by
  simp [State.setClock, List.set_comm p p' hne]

theorem setDff_comm {s : State} {d d' : Nat} (hne : d ≠ d') (f f' : Dff) :
    (s.setDff d f).setDff d' f' = (s.setDff d' f').setDff d f := by
  simp [State.setDff, List.set_comm f f' hne]

theorem clocks_setClock_of_ne {s : State} {c c' : Nat} (hne : c ≠ c') (p : Phase) :
    (s.setClock c p).clocks[c']? = s.clocks[c']? :=
  List.getElem?_set_ne hne

theorem dffs_setDff_of_ne {s : State} {d d' : Nat} (hne : d ≠ d') (f : Dff) :
    (s.setDff d f).dffs[d']? = s.dffs[d']? :=
  List.getElem?_set_ne hne

section Writes

variable {s : State} {d d' c c' : Nat} {f f' : Dff} {p p' : Phase}

theorem dffInput_comm_dffInput (hf : s.dffs[d]? = some f) (hf' : s.dffs[d']? = some f') (hp : s.clocks[c]? = some p)
    (hp' : s.clocks[c']? = some p') (v v' : Bit) (hne : d ≠ d') :
    runAll [.dffInput d v c, .dffInput d' v' c'] s = runAll [.dffInput d' v' c', .dffInput d v c] s := by
  refine runAll_comm (exec_dffInput v hf hp) (exec_dffInput v' hf' hp')
    (exec_dffInput v' ((dffs_setDff_of_ne hne _).trans hf') hp') ?_
  rw [setDff_comm hne]
  exact exec_dffInput v ((dffs_setDff_of_ne hne.symm _).trans hf) hp

theorem clockNext_comm_clockNext (hp : s.clocks[c]? = some p) (hp' : s.clocks[c']? = some p') (hne : c ≠ c') :
    runAll [.clockNext c, .clockNext c'] s = runAll [.clockNext c', .clockNext c] s := by
  refine runAll_comm (exec_clockNext hp) (exec_clockNext hp')
    (exec_clockNext ((clocks_setClock_of_ne hne _).trans hp')) ?_
  rw [setClock_comm hne]
  exact exec_clockNext ((clocks_setClock_of_ne hne.symm _).trans hp)

/-- The Clock passed to `DFF.input` is read by it, so the other Clock may be written (R28). -/
theorem clockNext_comm_dffInput (hf : s.dffs[d]? = some f) (hp : s.clocks[c]? = some p)
    (hp' : s.clocks[c']? = some p') (v : Bit) (hne : c ≠ c') :
    runAll [.clockNext c, .dffInput d v c'] s = runAll [.dffInput d v c', .clockNext c] s :=
  runAll_comm (exec_clockNext hp) (exec_dffInput v hf hp')
    (exec_dffInput v hf ((clocks_setClock_of_ne hne _).trans hp')) (exec_clockNext hp)

end Writes

/-! Pure reads: they leave no trace but their outputs, and only a write to what they read changes those. -/

/-- `Clock.phase` and `DFF.output` complete in the state they read. -/
theorem exec_read {s : State} {d c : Nat} (hd : d < s.dffs.length) (hc : c < s.clocks.length) {r : Instr}
    (hr : r ∈ [Instr.clockPhase c, Instr.dffOutput d c]) : ∃ v, exec r s = s.complete v := by
  obtain rfl | rfl : r = .clockPhase c ∨ r = .dffOutput d c := by simpa using hr
  · exact ⟨_, exec_clockPhase (List.getElem?_eq_getElem hc)⟩
  · exact ⟨_, exec_dffOutput (List.getElem?_eq_getElem hd) (List.getElem?_eq_getElem hc)⟩

theorem outputs_clockPhase {s : State} {c : Nat} {p : Phase} (hp : s.clocks[c]? = some p) :
    outputs [.clockPhase c] s = some (.phase p) :=
  outputs_singleton (exec_clockPhase hp)

/-- `Clock.phase` returns the same after any instruction but `Clock.next` on its Clock. -/
theorem outputs_clockPhase_after {i : Instr} {s t : State} {c : Nat} (h : exec i s = .next t)
    (hc : c < s.clocks.length) (notNext : i ≠ .clockNext c) :
    outputs [i, .clockPhase c] s = outputs [.clockPhase c] s := by
  have hp : s.clocks[c]? = some s.clocks[c] := List.getElem?_eq_getElem hc
  have hp' : t.clocks[c]? = some s.clocks[c] := (onlyNextChangesAClock i s t c h hc notNext).trans hp
  rw [outputs_cons_of_next h, outputs_clockPhase hp, outputs_clockPhase hp']

/-- `DFF.output` returns the same after any instruction but `Clock.next` on its Clock and `DFF.input` on its DFF. -/
theorem outputs_dffOutput_after {i : Instr} {s t : State} {d c : Nat} (h : exec i s = .next t)
    (hd : d < s.dffs.length) (hc : c < s.clocks.length) (notNext : i ≠ .clockNext c)
    (notInput : ∀ v c, i ≠ .dffInput d v c) : outputs [i, .dffOutput d c] s = outputs [.dffOutput d c] s := by
  have hf : s.dffs[d]? = some s.dffs[d] := List.getElem?_eq_getElem hd
  have hp : s.clocks[c]? = some s.clocks[c] := List.getElem?_eq_getElem hc
  have hf' : t.dffs[d]? = some s.dffs[d] := (onlyInputChangesADff i s t d h hd notInput).trans hf
  have hp' : t.clocks[c]? = some s.clocks[c] := (onlyNextChangesAClock i s t c h hc notNext).trans hp
  rw [outputs_cons_of_next h, outputs_dffOutput hf hp, outputs_dffOutput hf' hp']

theorem outputs_read_after {i r : Instr} {s t : State} {d c : Nat} (hr : r ∈ [Instr.clockPhase c, Instr.dffOutput d c])
    (h : exec i s = .next t) (hd : d < s.dffs.length) (hc : c < s.clocks.length) (notNext : i ≠ .clockNext c)
    (notInput : ∀ v c, i ≠ .dffInput d v c) : outputs [i, r] s = outputs [r] s := by
  obtain rfl | rfl : r = .clockPhase c ∨ r = .dffOutput d c := by simpa using hr
  · exact outputs_clockPhase_after h hc notNext
  · exact outputs_dffOutput_after h hd hc notNext notInput

/-! Creations append, so they commute with a write to what stands before the end of the list (R30). The two orders differ in
the recorded outputs alone (log entry 3). -/

theorem forgetOut_complete (s : State) (v : Value) : forgetOut (s.complete v) = s.complete .nothing := rfl

theorem setClock_addClock {s : State} {c : Nat} (hc : c < s.clocks.length) (p : Phase) :
    s.addClock.setClock c p = (s.setClock c p).addClock := by
  simp [State.setClock, State.addClock, List.set_append_left _ _ hc]

theorem setDff_addDff {s : State} {d : Nat} (hd : d < s.dffs.length) (f : Dff) :
    s.addDff.setDff d f = (s.setDff d f).addDff := by
  simp [State.setDff, State.addDff, List.set_append_left _ _ hd]

/-- An instruction `n` commutes with one that completes, up to the recorded outputs, when `n` completes in both orders and
the two meet in one state, or is refused alike in both. -/
theorem forgetOut_runAll_comm {n i : Instr} {s t u x : State} {v : Value} (before : exec i s = u.complete v)
    (after : exec i t = x.complete v) (creation : (∃ a b, exec n s = t.complete a ∧ exec n u = x.complete b) ∨
      (∃ r, exec n s = .refused r ∧ exec n u = .refused r)) :
    forgetOut (runAll [n, i] s) = forgetOut (runAll [i, n] s) := by
  rw [runAll_pair_of_complete before]
  obtain ⟨a, b, done, done'⟩ | ⟨r, refused, refused'⟩ := creation
  · rw [runAll_pair_of_complete done, after, done', forgetOut_complete, forgetOut_complete]
  · rw [runAll_cons_of_refused refused, refused']

theorem clockNew_comm {i : Instr} {s u : State} {v : Value} (before : exec i s = u.complete v)
    (after : exec i s.addClock = u.addClock.complete v) (count : u.clocks.length = s.clocks.length)
    (config : u.config = s.config) : forgetOut (runAll [.clockNew, i] s) = forgetOut (runAll [i, .clockNew] s) := by
  refine forgetOut_runAll_comm before after ?_
  obtain room | full := Nat.lt_or_ge s.clocks.length s.config.numClocks
  · exact .inl ⟨_, _, execClockNew_of_room room, execClockNew_of_room (by rwa [count, config])⟩
  · exact .inr ⟨_, execClockNew_of_full full, execClockNew_of_full (by rwa [count, config])⟩

theorem dffNew_comm {i : Instr} {s u : State} {v : Value} (before : exec i s = u.complete v)
    (after : exec i s.addDff = u.addDff.complete v) (count : u.dffs.length = s.dffs.length)
    (config : u.config = s.config) : forgetOut (runAll [.dffNew, i] s) = forgetOut (runAll [i, .dffNew] s) := by
  refine forgetOut_runAll_comm before after ?_
  obtain room | full := Nat.lt_or_ge s.dffs.length s.config.numDffs
  · exact .inl ⟨_, _, execDffNew_of_room room, execDffNew_of_room (by rwa [count, config])⟩
  · exact .inr ⟨_, execDffNew_of_full full, execDffNew_of_full (by rwa [count, config])⟩

theorem clockNext_comm_creation {s : State} {c : Nat} (hc : c < s.clocks.length) {n : Instr}
    (hn : n ∈ [Instr.clockNew, Instr.dffNew]) :
    forgetOut (runAll [n, .clockNext c] s) = forgetOut (runAll [.clockNext c, n] s) := by
  have hp : s.clocks[c]? = some s.clocks[c] := List.getElem?_eq_getElem hc
  obtain rfl | rfl : n = .clockNew ∨ n = .dffNew := by simpa using hn
  · refine clockNew_comm (exec_clockNext hp) ?_ (by simp) rfl
    rw [← setClock_addClock hc]
    exact exec_clockNext ((List.getElem?_append_left hc).trans hp)
  · exact dffNew_comm (exec_clockNext hp) (exec_clockNext hp) rfl rfl

theorem dffInput_comm_creation {s : State} {d c : Nat} (hd : d < s.dffs.length) (hc : c < s.clocks.length) (v : Bit)
    {n : Instr} (hn : n ∈ [Instr.clockNew, Instr.dffNew]) :
    forgetOut (runAll [n, .dffInput d v c] s) = forgetOut (runAll [.dffInput d v c, n] s) := by
  have hf : s.dffs[d]? = some s.dffs[d] := List.getElem?_eq_getElem hd
  have hp : s.clocks[c]? = some s.clocks[c] := List.getElem?_eq_getElem hc
  obtain rfl | rfl : n = .clockNew ∨ n = .dffNew := by simpa using hn
  · exact clockNew_comm (exec_dffInput v hf hp) (exec_dffInput v hf ((List.getElem?_append_left hc).trans hp)) rfl rfl
  · refine dffNew_comm (exec_dffInput v hf hp) ?_ (by simp) rfl
    rw [← setDff_addDff hd]
    exact exec_dffInput v ((List.getElem?_append_left hd).trans hf) hp

theorem clockNew_comm_dffNew {s : State} (room : s.dffs.length < s.config.numDffs) :
    forgetOut (runAll [.clockNew, .dffNew] s) = forgetOut (runAll [.dffNew, .clockNew] s) :=
  clockNew_comm (execDffNew_of_room room) (execDffNew_of_room (s := s.addClock) room) rfl rfl

/-- Settles O34: writes to different places of a list commute, a read completes in the state it reads, and a creation
appends behind all that was created before. -/
theorem operationsOnDifferentInstancesCommute : Obligations.OperationsOnDifferentInstancesCommute := by
  intro s d d' c c' v v' hd hd' hc hc'
  have hf : s.dffs[d]? = some s.dffs[d] := List.getElem?_eq_getElem hd
  have hf' : s.dffs[d']? = some s.dffs[d'] := List.getElem?_eq_getElem hd'
  have hp : s.clocks[c]? = some s.clocks[c] := List.getElem?_eq_getElem hc
  have hp' : s.clocks[c']? = some s.clocks[c'] := List.getElem?_eq_getElem hc'
  have input' := exec_dffInput v' hf' hp'
  refine ⟨dffInput_comm_dffInput hf hf' hp hp' v v', clockNext_comm_clockNext hp hp', clockNext_comm_dffInput hf hp hp' v,
    fun r hr => ?_, outputs_clockPhase_after input' hc nofun, fun hne => ?_, fun i hi n hn => ?_,
    fun _ room => clockNew_comm_dffNew room⟩
  · obtain ⟨o, read⟩ := exec_read hd hc hr
    have traceless : ∀ j, runAll [r, j] s = runAll [j] s := fun j => by
      rw [runAll_pair_of_complete read, runAll_singleton]
    refine ⟨traceless _, traceless _, traceless _, traceless _, ?_, ?_, fun hne => ?_, fun room => ?_, fun room => ?_⟩
    · exact outputs_read_after hr (exec_clockPhase hp') hd hc nofun nofun
    · exact outputs_read_after hr (exec_dffOutput hf' hp') hd hc nofun nofun
    · exact outputs_read_after hr (exec_clockNext hp') hd hc (by simpa using hne.symm) nofun
    · exact outputs_read_after hr (execClockNew_of_room room) hd hc nofun nofun
    · exact outputs_read_after hr (execDffNew_of_room room) hd hc nofun nofun
  · exact outputs_dffOutput_after input' hd hc nofun (by simp [hne.symm])
  · obtain rfl | rfl : i = .clockNext c ∨ i = .dffInput d v c := by simpa using hi
    · exact clockNext_comm_creation hc hn
    · exact dffInput_comm_creation hd hc v hn

/-! What one step of the driver runs (R30, R44). -/

/-- With no statement left a step changes nothing (log entry 8); with one, it is `step_cons`. -/
theorem step_nil {s : State} (hf : s.fault = none) (hp : s.program = .nil) : step s = .next s := by
  simp [step, driverStep, hf, hp]

/-- Settles O43: the step runs the statement, which issues the operation, which runs what it decodes to. -/
theorem aStepRunsTheDecodedInstruction : Obligations.AStepRunsTheDecodedInstruction := by
  intro s e rest i hf hp hdecode
  calc step s = runStmt (.op e) (s.setProgram rest) := step_cons hf hp
    _ = issue e (s.setProgram rest) := rfl
    _ = exec i (s.setProgram rest) := issue_eq hdecode _

/-- Settles O52: the empty program is the branch of the driver's step that answers the state it was given. -/
theorem anEmptyProgramChangesNothing : Obligations.AnEmptyProgramChangesNothing :=
  fun _ => step_nil

end Sys2Proof.Machine

/-! Encoding: what decodes and what is refused (R37, R39 to R41, R61), and that decoding and encoding undo each other
(R36, R39, R42, R44). -/

namespace Sys2Proof.Machine

/-! What decodes and what is refused (R37, R39 to R41, R61). -/

theorem wellFormed_iff (e : Encoded) : e.wellFormed = true ↔
    ∃ sh, rowShape e.row = some sh ∧ e.refs.length = sh.refs ∧ e.ports.length = sh.ports.sum := by
  cases shape : rowShape e.row <;> simp [Encoded.wellFormed, shape]

/-- The converse of `decode_ok`. -/
theorem decode_of_build {e : Encoded} {i : Instr} {sh : RowShape} (shape : rowShape e.row = some sh)
    (refs : e.refs.length = sh.refs) (ports : e.ports.length = sh.ports.sum)
    (build : buildInstr e.row e.refs e.ports = some i) : decode e = .ok i := by
  simp [decode, shape, refs, ports, build]

theorem decode_of_unknownBlock {e : Encoded} (unknown : rowShape e.row = none) :
    decode e = .error (.unknownBlock e.row) := by
  simp [decode, unknown]

theorem decode_of_portCount {e : Encoded} {sh : RowShape} (shape : rowShape e.row = some sh)
    (refs : e.refs.length = sh.refs) (ports : e.ports.length ≠ sh.ports.sum) :
    decode e = .error (.portCount e.row sh.ports.sum e.ports.length) := by
  simp [decode, shape, refs, ports]

/-- A number past the table is no block (R61, D20). -/
theorem rowShape_of_ge {row : Nat} (h : 90 ≤ row) : rowShape row = none := by
  have above : ¬ row < aluRows := by simp only [aluRows]; omega
  rw [rowShape, if_neg above]
  exact List.getElem?_eq_none (by simp [componentShapes, eventShapes, aluRows]; omega)

theorem lt_of_rowShape {row : Nat} {sh : RowShape} (shape : rowShape row = some sh) : row < 90 := by
  by_contra past
  simp [rowShape_of_ge (Nat.le_of_not_lt past)] at shape

/-! Decoding an encoding gives the instruction back (R36, R39, R44). -/

theorem portBit_cons_zero (b : Bit) (bs : List Bit) : portBit (b :: bs) 0 = b := rfl

theorem portBit_cons_succ (b : Bit) (bs : List Bit) (k : Nat) : portBit (b :: bs) (k + 1) = portBit bs k := rfl

/-- Settles O53: a row whose ports are single Bits decodes by evaluation, a row with Word ports by reading its ports one after
another, and each ALU row by its code. -/
theorem decodeUndoesEncode : Obligations.DecodeUndoesEncode := by
  intro i
  cases i with
  | nand | not | and | or | xor | mux | dMux | or8Way | dMux4Way | dMux8Way | halfAdder | fullAdder => rfl
  | clockNew | clockNext | clockPhase | dffNew | dffInput | dffOutput => rfl
  | not16 | and16 | or16 | mux16 | mux4Way16 | mux8Way16 | add16 | inc16 =>
    refine decode_of_build rfl rfl (by simp [encode]) ?_
    simp [encode, buildInstr, aluRows, isComponentRow, componentShapes, componentInstr, portWord_append, portWord_skip,
      portWord_last, portBit_skip, portBit_cons_zero, portBit_cons_succ]
  | _ => exact decode_alu (by decide) _ _ rfl

/-- An operation written as the encoding of an instruction decodes to it. -/
theorem decode_of_encode {e : Encoded} {i : Instr} (h : encode i = e) : decode e = .ok i :=
  h ▸ decodeUndoesEncode i

/-- Settles O56: each port vector of the table, written out, is the encoding of its instruction. -/
theorem portVectorsFollowTheTable : Obligations.PortVectorsFollowTheTable := by
  unfold Obligations.PortVectorsFollowTheTable
  intros
  and_intros <;> exact decode_of_encode rfl

/-- Settles O57: each code of the table packs to the row of its operation's encoding. -/
theorem canonicalOperationsHaveTheirCodes : Obligations.CanonicalOperationsHaveTheirCodes := by
  unfold Obligations.CanonicalOperationsHaveTheirCodes
  intros
  and_intros <;> exact decode_of_encode rfl

theorem decodeTableWord_eq_some_iff {nbits w : Nat} {i : Instr} :
    decodeTableWord nbits w = some i ↔ decode (encodedOfTableWord nbits w) = .ok i := by
  cases h : decode (encodedOfTableWord nbits w) <;> simp [decodeTableWord, h]

theorem decodeTableWord_of_encode {nbits w : Nat} {i : Instr} (h : encode i = encodedOfTableWord nbits w) :
    decodeTableWord nbits w = some i :=
  decodeTableWord_eq_some_iff.mpr (decode_of_encode h)

/-- Settles O58: each sample is the encoding of its instruction. -/
theorem sampleWordsDecode : Obligations.SampleWordsDecode := by
  refine ⟨decodeTableWord_of_encode (by decide), decodeTableWord_of_encode (by decide), ?_⟩
  and_intros <;> exact decode_of_encode rfl

/-! Encoding what was decoded gives the operation back (R39 to R41): a field read at position `k` of a list, put back in front
of what follows the field, is what stands in the list from `k` on. -/

theorem getD_cons_drop {α : Type} {l : List α} {k : Nat} (d : α) (h : k < l.length) :
    l.getD k d :: l.drop (k + 1) = l.drop k := by
  rw [List.getD_eq_getElem l d h, List.getElem_cons_drop]

theorem getD_eq_drop_of_last {α : Type} {l : List α} {k : Nat} (d : α) (h : l.length = k + 1) :
    [l.getD k d] = l.drop k := by
  rw [← getD_cons_drop d (by omega), List.drop_eq_nil_of_le h.le]

theorem wordBits_append_drop {ports : List Bit} {k : Nat} (h : k + 16 ≤ ports.length) :
    wordBits (portWord ports k) ++ ports.drop (k + 16) = ports.drop k := by
  rw [portWord, wordBits_wordOfBits _ (by simp; omega), ← List.drop_drop, List.take_append_drop]

theorem wordBits_eq_drop_of_last {ports : List Bit} {k : Nat} (h : ports.length = k + 16) :
    wordBits (portWord ports k) = ports.drop k := by
  rw [← wordBits_append_drop h.ge, List.drop_eq_nil_of_le h.le, List.append_nil]

/-! One group of rows after another, each row by its own shape. -/

section Rows

variable {row : Nat} {refs : List Nat} {ports : List Bit} {sh : RowShape}

theorem exists_buildInstr_alu (alu : row < aluRows) (len : ports.length = 32) :
    ∃ i, buildInstr row [] ports = some i ∧ encode i = ⟨row, [], ports⟩ := by
  have fields : wordBits (portWord ports 0) ++ wordBits (portWord ports 16) = ports := by
    rw [wordBits_eq_drop_of_last len, wordBits_append_drop (by omega), List.drop_zero]
  rw [aluRows] at alu
  interval_cases row <;> exact ⟨_, rfl, congrArg (Encoded.mk _ []) fields⟩

theorem exists_buildInstr_component (lo : 64 ≤ row) (hi : row < 84) (shape : rowShape row = some sh)
    (count : refs.length = sh.refs) (len : ports.length = sh.ports.sum) :
    ∃ i, buildInstr row refs ports = some i ∧ encode i = ⟨row, refs, ports⟩ := by
  interval_cases row <;> cases shape
  all_goals
    obtain rfl := List.length_eq_zero_iff.mp count
    refine ⟨_, rfl, ?_⟩
    simp only [List.sum_cons, List.sum_nil] at len
    simp (disch := omega) only [encode, portBit, List.append_assoc, getD_cons_drop, getD_eq_drop_of_last,
      wordBits_append_drop, wordBits_eq_drop_of_last, List.drop_zero]

theorem exists_buildInstr_event (lo : 84 ≤ row) (hi : row < 90) (shape : rowShape row = some sh)
    (count : refs.length = sh.refs) (len : ports.length = sh.ports.sum) :
    ∃ i, buildInstr row refs ports = some i ∧ encode i = ⟨row, refs, ports⟩ := by
  obtain creation | clock | rfl | rfl : (row = 84 ∨ row = 87) ∨ (row = 85 ∨ row = 86) ∨ row = 88 ∨ row = 89 := by omega
  · obtain rfl | rfl := creation
    all_goals
      cases shape
      obtain rfl := List.length_eq_zero_iff.mp count
      obtain rfl := List.length_eq_zero_iff.mp len
      exact ⟨_, rfl, rfl⟩
  · obtain rfl | rfl := clock
    all_goals
      cases shape
      obtain ⟨c, rfl⟩ := List.length_eq_one_iff.mp count
      obtain rfl := List.length_eq_zero_iff.mp len
      exact ⟨_, rfl, rfl⟩
  · cases shape
    obtain ⟨d, c, rfl⟩ := List.length_eq_two.mp count
    obtain ⟨b, rfl⟩ := List.length_eq_one_iff.mp len
    exact ⟨_, rfl, rfl⟩
  · cases shape
    obtain ⟨d, c, rfl⟩ := List.length_eq_two.mp count
    obtain rfl := List.length_eq_zero_iff.mp len
    exact ⟨_, rfl, rfl⟩

end Rows

/-- Every well-formed operation is the encoding of the instruction that is built for it. -/
theorem exists_buildInstr {e : Encoded} {sh : RowShape} (shape : rowShape e.row = some sh)
    (count : e.refs.length = sh.refs) (len : e.ports.length = sh.ports.sum) :
    ∃ i, buildInstr e.row e.refs e.ports = some i ∧ encode i = e := by
  have row : e.row < 90 := lt_of_rowShape shape
  obtain alu | notAlu := Nat.lt_or_ge e.row aluRows
  · obtain ⟨row, refs, ports⟩ := e
    rw [rowShape, if_pos alu] at shape
    cases shape
    obtain rfl := List.length_eq_zero_iff.mp count
    exact exists_buildInstr_alu alu len
  · obtain component | event := Nat.lt_or_ge e.row 84
    · exact exists_buildInstr_component notAlu component shape count len
    · exact exists_buildInstr_event event row shape count len

/-- Settles O54: the instruction built for the operation is the one it decodes to, and its encoding is the operation. -/
theorem encodeUndoesDecode : Obligations.EncodeUndoesDecode := by
  intro e i h
  obtain ⟨sh, shape, count, len, build⟩ := decode_ok h
  obtain ⟨j, build', encoded⟩ := exists_buildInstr shape count len
  obtain rfl : j = i := Option.some.inj (build'.symm.trans build)
  exact encoded

/-- Settles O55: past the operand counts decoding only builds the row's instruction, and every row has one. -/
theorem exactlyWellFormedOperationsDecode : Obligations.ExactlyWellFormedOperationsDecode := by
  intro e
  refine ⟨?_, fun past => decode_of_unknownBlock (rowShape_of_ge past), fun sh => decode_of_portCount⟩
  rw [wellFormed_iff]
  constructor
  · rintro ⟨i, h⟩
    obtain ⟨sh, shape, count, len, -⟩ := decode_ok h
    exact ⟨sh, shape, count, len⟩
  · rintro ⟨sh, shape, count, len⟩
    obtain ⟨i, build, -⟩ := exists_buildInstr shape count len
    exact ⟨i, decode_of_build shape count len build⟩

end Sys2Proof.Machine

/-! The driver: names and ports (R39, R44), what each statement issues (R44, R95 to R99), the Word literal (R43, R103, R107),
`output16` (R101) and operands that were not created (log entry 6). -/

namespace Sys2Proof.Machine

open Sys2Proof.Bit Sys2Proof.Statements

/-! Names (R44; log entry 4). -/

/-- Binding a name in a state with the names of `s` (R44). -/
theorem binds_bind {s u : State} (same : u.env = s.env) (n : Name) (v : Value) : binds n v s (u.bind n v) := by
  refine ⟨State.value?_bind_self u n v, fun m hm => ?_⟩
  rw [State.value?_bind_of_ne u n m v hm, State.value?, State.value?, same]

/-- Settles O59: `bind` writes the names alone. -/
theorem aBoundNameStandsForItsValue : Obligations.ABoundNameStandsForItsValue :=
  fun _ n v => ⟨binds_bind rfl n v, rfl⟩

/-! Ports (R39, R44; log entries 6 and 20). -/

theorem eval_port_name {s : State} {n : Name} {v : Value} (h : s.value? n = some v) (p : Port) :
    eval s (.port (.name n) p) = selectPort v p := by
  simp [eval, lookupName, h]

theorem selectPort_outAt {outs : List Bit} {k : Nat} {b : Bit} (h : outs[k]? = some b) :
    selectPort (.demux outs) (.outAt k) = .ok (.bit b) := by
  simp [selectPort, h]

theorem selectPort_outAt_of_ge {outs : List Bit} {k : Nat} (h : outs.length ≤ k) :
    selectPort (.demux outs) (.outAt k) = .error (.refused .wrongKind) := by
  simp [selectPort, List.getElem?_eq_none h]

/-- Settles O60: `selectPort` of what the name stands for, case by case of the ports it has. -/
theorem aPortSelectsAnOutput : Obligations.APortSelectsAnOutput := by
  intro s n b w carry sum zr ng outs k p
  refine ⟨fun h => eval_port_name h _, fun h => eval_port_name h _, fun h => ?_, fun h => ?_, fun h => eval_port_name h _,
    fun h => ?_⟩
  · exact ⟨eval_port_name h _, eval_port_name h _, eval_port_name h _⟩
  · exact ⟨eval_port_name h _, eval_port_name h _⟩
  · exact ⟨fun out => (eval_port_name h _).trans (selectPort_outAt out),
      fun lacks => (eval_port_name h _).trans (selectPort_outAt_of_ge lacks)⟩

/-! Statements (R44). -/

/-- A creation statement whose operation completes binds the name to its output. -/
theorem issueAs_of_complete {e : Encoded} {i : Instr} {s t : State} {v : Value} (n : Name) (decoded : decode e = .ok i)
    (done : exec i s = t.complete v) : issueAs n e s = .next ((t.setOut v).bind n v) := by
  rw [issueAs, issue_eq decoded, done]
  rfl

theorem runNext_eq {s : State} {n : Name} {c : Nat} (h : s.value? n = some (.clock c)) :
    runNext s n = exec (.clockNext c) s := by
  rw [runNext, clockNamed_eq h]
  exact issue_eq (decodeUndoesEncode (.clockNext c)) s

theorem runInput_eq {s : State} {m n : Name} {d c : Nat} {e : Expr} {b : Bit} (hm : s.value? m = some (.dff d))
    (hn : s.value? n = some (.clock c)) (hb : evalBit s e = .ok b) : runInput s m e n = exec (.dffInput d b c) s := by
  simp only [runInput, dffNamed_eq hm, clockNamed_eq hn, hb]
  exact issue_eq (decodeUndoesEncode (.dffInput d b c)) s

/-- Settles O45: a creation with room for it completes, and `next` and `input` find the instances their names stand for. -/
theorem statementsIssueTheirOperations : Obligations.StatementsIssueTheirOperations := by
  intro s rest n m c d e b hf
  refine ⟨fun hp room => ?_, fun hp room => ?_, fun hp hn => ?_, fun hp hm hn hb => ?_⟩
  · have created := execClockNew_of_room (s := s.setProgram rest) room
    have run := issueAs_of_complete n (decodeUndoesEncode .clockNew) created
    exact ⟨_, (step_cons hf hp).trans run, binds_bind rfl n _, rfl⟩
  · have created := execDffNew_of_room (s := s.setProgram rest) room
    have run := issueAs_of_complete n (decodeUndoesEncode .dffNew) created
    exact ⟨_, (step_cons hf hp).trans run, binds_bind rfl n _, rfl⟩
  · exact (step_cons hf hp).trans (runNext_eq hn)
  · exact (step_cons hf hp).trans (runInput_eq hm hn hb)

theorem issueValue_of_next {e : Encoded} {s t : State} (h : issue e s = .next t) : issueValue e s = .ok t.out := by
  rw [issueValue, h]

/-- The expression `Component(arguments)` gives the outputs of the component (R37, R39). -/
theorem callComponent_of_next {s t : State} {row : Nat} {bss : List (List Bit)} {sh : RowShape} {i : Instr}
    (component : row < 84) (shape : rowShape row = some sh) (widths : bss.map List.length = sh.ports)
    (decoded : decode ⟨row, [], bss.flatten⟩ = .ok i) (done : exec i s = .next t) :
    callComponent s row bss = .ok t.out := by
  have isRow : isComponentRow row = true := (isComponentRow_iff row).mpr component
  simp [callComponent, shape, isRow, widths, issueValue_of_next ((issue_eq decoded s).trans done)]

/-- Settles O46: the call gives the outputs of `t`, and a component changes nothing but the outputs. -/
theorem letBindsAComponentsOutputs : Obligations.LetBindsAComponentsOutputs := by
  intro s t rest n row args bss sh i hf hp evaluated component shape widths decoded done
  obtain ⟨v, completes⟩ := componentsArePureFunctions i ((decode_row decoded).trans_lt component)
  obtain rfl : ({ s with program := rest, out := v } : State) = t := by simpa [completes] using done
  refine ⟨step_let_ok hf hp ?_, binds_bind rfl n v⟩
  rw [eval]
  simp only [State.setProgram, evaluated]
  exact callComponent_of_next component shape widths decoded done

/-- Settles O44: the placed operation is the statement in front of the program, and what follows it is the program of `s`. -/
theorem aPlacedTableWordRunsNext : Obligations.APlacedTableWordRunsNext := by
  intro s nbits w i hf decoded
  exact aStepRunsTheDecodedInstruction (s.withFetchWord nbits w) _ s.program i hf rfl
    (decodeTableWord_eq_some_iff.mp decoded)

theorem runIf_eq {s : State} {e : Expr} {b : Bit} (h : evalBit s e = .ok b) (yes no : Prog) :
    runIf s e yes no = .next (s.setProgram (appendProg (if b then yes else no) s.program)) := by
  rw [runIf, h]

/-- Settles O50: both put programs in front of what follows, `if` the one its Bit chooses. -/
theorem repeatAndIfChooseWhatRunsNext : Obligations.RepeatAndIfChooseWhatRunsNext := by
  intro s rest body yes no k e hf
  exact ⟨fun hp => step_cons hf hp, fun hp => step_cons hf hp, fun hp hb => (step_cons hf hp).trans (runIf_eq hb yes no),
    fun hp hb => (step_cons hf hp).trans (runIf_eq hb yes no)⟩

/-! The Word literal: which causes apply, and the Word it is read as where none does (R43, R103, R107). -/

theorem tokenOk_iff (t : Token) : tokenOk t = true ↔ t ≠ .other := by
  cases t <;> simp [tokenOk]

theorem tokenBit_iff (t : Token) : tokenBit t = I ↔ t = .one := by
  cases t <;> simp [tokenBit]

theorem lengthCauses_of_eq {ts : List Token} (len : ts.length = 16) : lengthCauses ts = [] :=
  if_pos len

theorem lengthCauses_of_ne {ts : List Token} (len : ts.length ≠ 16) :
    lengthCauses ts = [.malformedWordLength ts.length] :=
  if_neg len

theorem tokenCauses_of_good {ts : List Token} (good : Token.other ∉ ts) : tokenCauses ts = [] := by
  have notFound : ts.findIdx? (fun t => !tokenOk t) = none := by
    rw [List.findIdx?_eq_none_iff]
    intro t ht
    have ok : tokenOk t = true := (tokenOk_iff t).mpr (ne_of_mem_of_not_mem ht good)
    simp [ok]
  rw [tokenCauses, notFound]

/-- The first bad token is the one recorded (R103, D12). -/
theorem tokenCauses_of_first {ts : List Token} {k : Nat} (bad : ts[k]? = some .other) (first : Token.other ∉ ts.take k) :
    tokenCauses ts = [.malformedWordToken k] := by
  have found : ts.findIdx? (fun t => !tokenOk t) = some k := by
    obtain ⟨hk, here⟩ := List.getElem?_eq_some_iff.mp bad
    refine List.findIdx?_eq_some_iff_getElem.mpr ⟨hk, by simp [here, tokenOk], fun j hj => ?_⟩
    have earlier : ts[j] ∈ ts.take k := List.mem_take_iff_getElem.mpr ⟨j, by omega, rfl⟩
    have ok : tokenOk ts[j] = true := (tokenOk_iff _).mpr (ne_of_mem_of_not_mem earlier first)
    simp [ok]
  rw [tokenCauses, found]

theorem wordOfTokens_of_good {ts : List Token} (len : ts.length = 16) (good : Token.other ∉ ts) :
    wordOfTokens ts = .ok (wordOfBits (ts.map tokenBit)) := by
  rw [wordOfTokens, lengthCauses_of_eq len, tokenCauses_of_good good]
  rfl

/-- Index `k` of the Word is token `k` (R43, D19). -/
theorem bit_wordOfBits_tokenBit {ts : List Token} (len : ts.length = 16) {k : Nat} (hk : k < 16) :
    bit (wordOfBits (ts.map tokenBit)) k = I ↔ ts[k]? = some .one := by
  rw [bit_wordOfBits _ (by simpa using len) k hk, List.getElem_map, tokenBit_iff, List.getElem?_eq_getElem (by omega)]
  simp

theorem eval_tokens (s : State) (ts : List Token) : eval s (.tokens ts) = atBoundary .word (wordOfTokens ts) := by
  rw [eval]

/-- A Word literal to which some cause applies faults with every cause that does (R107). -/
theorem eval_tokens_of_causes (s : State) {ts : List Token} {ofCount ofToken : List FaultReason}
    (count : lengthCauses ts = ofCount) (token : tokenCauses ts = ofToken) (applies : ofCount ++ ofToken ≠ []) :
    eval s (.tokens ts) = .error (.fault (ofCount ++ ofToken)) := by
  obtain ⟨c, cs, causes⟩ := List.exists_cons_of_ne_nil applies
  rw [eval_tokens, wordOfTokens, count, token, causes]
  rfl

/-- Settles O47: the causes that apply are the count's and the first bad token's, in this order, and the Word is read where
none does. -/
theorem aWordLiteralIsReadOrFaults : Obligations.AWordLiteralIsReadOrFaults := by
  intro s rest n ts hf hp
  refine ⟨fun len good => ?_, fun len good => ?_, fun k bad first len => ?_, fun k bad first len => ?_⟩
  · refine ⟨wordOfBits (ts.map tokenBit), fun k => bit_wordOfBits_tokenBit len, step_let_ok hf hp ?_⟩
    rw [eval_tokens, wordOfTokens_of_good len good]
    rfl
  · exact step_let_fault hf hp (eval_tokens_of_causes _ (lengthCauses_of_ne len) (tokenCauses_of_good good) nofun)
  · exact step_let_fault hf hp (eval_tokens_of_causes _ (lengthCauses_of_eq len) (tokenCauses_of_first bad first) nofun)
  · exact step_let_fault hf hp (eval_tokens_of_causes _ (lengthCauses_of_ne len) (tokenCauses_of_first bad first) nofun)

/-! `output16` (R44, R101). -/

theorem outputValue_eq {s : State} {d c : Name} {d' c' : Nat} {f : Dff} {p : Phase} (hd : s.value? d = some (.dff d'))
    (hc : s.value? c = some (.clock c')) (hf : s.dffs[d']? = some f) (hp : s.clocks[c']? = some p) :
    outputValue s d c = .ok (.bit (dffVisible p f)) := by
  have run : issue ⟨89, [d', c'], []⟩ s = s.complete (.bit (dffVisible p f)) :=
    (issue_eq (decodeUndoesEncode (.dffOutput d' c')) s).trans (exec_dffOutput hf hp)
  simp only [outputValue, dffNamed_eq hd, clockNamed_eq hc]
  exact issueValue_of_next run

/-- Arguments that are one Bit each give those Bits side by side. -/
theorem evalArgs_foldr {s : State} {g : Nat → Expr} {b : Nat → Bit} {ks : List Nat}
    (one : ∀ k ∈ ks, eval s (g k) = .ok (.bit (b k))) :
    evalArgs s (ks.foldr (fun k es => .cons (g k) es) .nil) = .ok (ks.map (fun k => [b k])) := by
  induction ks with
  | nil => rw [List.foldr_nil, evalArgs, List.map_nil]
  | cons k ks ih =>
    obtain ⟨here, later⟩ := List.forall_mem_cons.mp one
    simp [evalArgs, here, valueBits, ih later]

/-- Sixteen one-Bit arguments packed are a Word, lane by lane (log entry 13). -/
theorem eval_pack_foldr {s : State} {g : Nat → Expr} {b : Nat → Bit}
    (one : ∀ k ∈ List.range 16, eval s (g k) = .ok (.bit (b k))) :
    eval s (.pack ((List.range 16).foldr (fun k es => .cons (g k) es) .nil)) = .ok (.word (lanes b)) := by
  rw [eval, evalArgs_foldr one]
  rfl

/-- Settles O51: each of the sixteen arguments is the Bit its DFF shows, and sixteen Bits packed are a Word. -/
theorem output16ReadsSixteenDffs : Obligations.Output16ReadsSixteenDffs := by
  intro s r c c' p ids fs hc hp idCount dffCount names contents
  have reads : ∀ k ∈ List.range 16,
      eval s (.output (.elem r k) c) = .ok (.bit ((fs.map (dffVisible p)).getD k O)) := by
    intro k hk
    have lt : k < 16 := List.mem_range.mp hk
    have name : s.value? (.elem r k) = some (.dff ids[k]) := by simp [names k lt, idCount, lt]
    have content : s.dffs[ids[k]]? = some fs[k] := by simp [contents k ids[k] (by simp), dffCount, lt]
    rw [eval, outputValue_eq name hc content hp]
    simp [dffCount, lt]
  refine ⟨_, eval_pack_foldr reads, fun k f hf => ?_⟩
  have lt : k < 16 := dffCount ▸ (List.getElem?_eq_some_iff.mp hf).1
  rw [bit_lanes _ k lt]
  simp [hf]

/-! An operand that was not created (log entry 6). -/

theorem withClock_of_ge {c : Nat} {s : State} (h : s.clocks.length ≤ c) (k : Phase → Answer) :
    withClock c s k = .refused (.noSuchClock c) := by
  simp [withClock, List.getElem?_eq_none h]

theorem withDff_of_ge {d : Nat} {s : State} (h : s.dffs.length ≤ d) (k : Dff → Answer) :
    withDff d s k = .refused (.noSuchDff d) := by
  simp [withDff, List.getElem?_eq_none h]

/-- Settles O35: looking up a Clock or a DFF that is missing refuses; `DFF.input` and `DFF.output` look up the DFF before the Clock. -/
theorem missingInstancesAreRefused : Obligations.MissingInstancesAreRefused := by
  intro s d c v
  refine ⟨fun noClock => ⟨withClock_of_ge noClock _, withClock_of_ge noClock _⟩,
    fun noDff => ⟨withDff_of_ge noDff _, withDff_of_ge noDff _⟩, fun hd noClock => ?_⟩
  have hf : s.dffs[d]? = some s.dffs[d] := List.getElem?_eq_getElem hd
  exact ⟨(withDff_eq hf _).trans (withClock_of_ge noClock _), (withDff_eq hf _).trans (withClock_of_ge noClock _)⟩

end Sys2Proof.Machine

/-! Wide multiplexers and demultiplexers: the selector value numbers the inputs and the outputs (R37, R57 to R60). -/

namespace Sys2Proof.Machine

open Sys2Proof.Bit

theorem mux4Way16_selects (in0 in1 in2 in3 : Word) (sel0 sel1 : Bit) :
    [in0, in1, in2, in3][2 * sel0.toNat + sel1.toNat]? = some (mux4Way16 in0 in1 in2 in3 sel0 sel1) := by
  rw [mux4Way16_eq]
  cases sel0 <;> cases sel1 <;> rfl

theorem mux8Way16_selects (in0 in1 in2 in3 in4 in5 in6 in7 : Word) (sel0 sel1 sel2 : Bit) :
    [in0, in1, in2, in3, in4, in5, in6, in7][4 * sel0.toNat + 2 * sel1.toNat + sel2.toNat]? =
      some (mux8Way16 in0 in1 in2 in3 in4 in5 in6 in7 sel0 sel1 sel2) := by
  rw [mux8Way16_eq, mux4Way16_eq, mux4Way16_eq]
  cases sel0 <;> cases sel1 <;> cases sel2 <;> rfl

/-- Settles O8: the two `selects` lemmas give the input by its number; the trees are the compositions the
components are defined by. -/
theorem wideMuxSelectsBySelectorValue : Obligations.WideMuxSelectsBySelectorValue := by
  intro in0 in1 in2 in3 in4 in5 in6 in7 sel0 sel1 sel2 s
  exact ⟨⟨_, rfl, mux4Way16_selects in0 in1 in2 in3 sel0 sel1⟩,
    ⟨_, rfl, mux8Way16_selects in0 in1 in2 in3 in4 in5 in6 in7 sel0 sel1 sel2⟩, rfl, rfl⟩

theorem dMux4Way_routes (inp sel0 sel1 : Bit) :
    dMux4Way inp sel0 sel1 = (List.replicate 4 O).set (2 * sel0.toNat + sel1.toNat) inp := by
  rw [dMux4Way_eq]
  cases sel0 <;> cases sel1 <;> simp

theorem dMux8Way_routes (inp sel0 sel1 sel2 : Bit) :
    dMux8Way inp sel0 sel1 sel2 = (List.replicate 8 O).set (4 * sel0.toNat + 2 * sel1.toNat + sel2.toNat) inp := by
  rw [dMux8Way_eq, dMux4Way_routes, dMux4Way_routes]
  cases sel0 <;> cases sel1 <;> cases sel2 <;> simp [List.replicate]

/-- Settles O9: the two `routes` lemmas give the output by its number; the trees are the compositions the
components are defined by. -/
theorem wideDMuxRoutesBySelectorValue : Obligations.WideDMuxRoutesBySelectorValue := by
  intro inp sel0 sel1 sel2 s
  rw [← dMux4Way_routes, ← dMux8Way_routes]
  exact ⟨rfl, rfl, _, _, rfl, rfl, rfl⟩

end Sys2Proof.Machine

/-! The primitive gate (R45). -/

namespace Sys2Proof.Machine

open Sys2Proof.Bit

/-- R45 in closed form: the output is `I` unless both inputs are, and nothing but the recorded outputs changes. -/
theorem exec_nand (a b : Bit) (s : State) : exec (.nand a b) s = .next { s with out := .bit (!(a && b)) } := by
  rw [← nandGate_eq]
  rfl

/-- Settles O1: the four rows of the table are the closed form at its four input pairs. -/
theorem nandFollowsItsTable : Obligations.NandFollowsItsTable :=
  fun s => ⟨exec_nand O O s, exec_nand O I s, exec_nand I O s, exec_nand I I s⟩

end Sys2Proof.Machine

/-! The gates and lifts on Bits and Words (R46 to R56). -/

namespace Sys2Proof.Machine

open Sys2Proof.Bit Sys2Proof.Statements

/-! What one evaluation of a component gives. -/

theorem bitOut_of_complete {i : Instr} {b : Bit} (h : exec i State.reset = State.reset.complete (.bit b)) :
    bitOut i = b := by
  rw [bitOut, outputs_singleton h, State.setOut_out]

@[simp] theorem bitOut_nand (a b : Bit) : bitOut (.nand a b) = nandGate a b := bitOut_of_complete rfl

@[simp] theorem bitOut_not (a : Bit) : bitOut (.not a) = notGate a := bitOut_of_complete rfl

@[simp] theorem bitOut_and (a b : Bit) : bitOut (.and a b) = andGate a b := bitOut_of_complete rfl

@[simp] theorem bitOut_or (a b : Bit) : bitOut (.or a b) = orGate a b := bitOut_of_complete rfl

@[simp] theorem bitOut_xor (a b : Bit) : bitOut (.xor a b) = xorGate a b := bitOut_of_complete rfl

@[simp] theorem bitOut_mux (a b sel : Bit) : bitOut (.mux a b sel) = muxGate a b sel := bitOut_of_complete rfl

@[simp] theorem demuxOut_dMux (inp sel : Bit) : demuxOut (.dMux inp sel) = [(dMuxGate inp sel).1, (dMuxGate inp sel).2] := by
  rw [demuxOut, outputs_singleton rfl]
  rfl

/-! The scalar gates: one equation for the whole answer each (R46 to R51). -/

theorem exec_not (a : Bit) (s : State) : exec (.not a) s = .next { s with out := .bit (!a) } := by
  rw [← notGate_eq]
  rfl

theorem exec_and (a b : Bit) (s : State) : exec (.and a b) s = .next { s with out := .bit (a && b) } := by
  rw [← andGate_eq]
  rfl

theorem exec_or (a b : Bit) (s : State) : exec (.or a b) s = .next { s with out := .bit (a || b) } := by
  rw [← orGate_eq]
  rfl

/-- `Xor` as the inequality of its inputs (R49). -/
theorem xorGate_eq_decide_ne (a b : Bit) : xorGate a b = decide (a ≠ b) := by
  rw [xorGate_eq]
  cases a <;> cases b <;> rfl

theorem exec_xor (a b : Bit) (s : State) : exec (.xor a b) s = .next { s with out := .bit (decide (a ≠ b)) } := by
  rw [← xorGate_eq_decide_ne]
  rfl

/-- Settles O2: the closed form of each gate; the compositions are the ones the gates are defined by. -/
theorem scalarGatesFollowTheirTables : Obligations.ScalarGatesFollowTheirTables := by
  intro a b s
  refine ⟨exec_not a s, exec_and a b s, exec_or a b s, exec_xor a b s, ?_⟩
  simp only [bitOut_nand, bitOut_not, bitOut_and, bitOut_or, bitOut_xor]
  exact ⟨rfl, rfl, rfl, rfl⟩

theorem exec_mux (a b sel : Bit) (s : State) :
    exec (.mux a b sel) s = .next { s with out := .bit (if sel = O then a else b) } := by
  have selects : muxGate a b sel = if sel = O then a else b := by
    rw [muxGate_eq]
    cases sel <;> rfl
  rw [← selects]
  rfl

theorem exec_dMux (inp sel : Bit) (s : State) :
    exec (.dMux inp sel) s = .next { s with out := .demux (if sel = O then [inp, O] else [O, inp]) } := by
  have routes : [(dMuxGate inp sel).1, (dMuxGate inp sel).2] = if sel = O then [inp, O] else [O, inp] := by
    rw [dMuxGate_eq]
    cases sel <;> simp
  rw [← routes]
  rfl

/-- Settles O3: the closed forms of `Mux` and `DMux` at each selector; the compositions are the ones they are defined by. -/
theorem muxSelectsAndDMuxRoutes : Obligations.MuxSelectsAndDMuxRoutes := by
  intro a b inp sel s
  refine ⟨exec_mux a b sel s, exec_dMux inp sel s, ?_⟩
  simp only [bitOut_not, bitOut_and, bitOut_or, bitOut_mux, demuxOut_dMux]
  exact ⟨rfl, rfl⟩

/-! The 16-wide lifts, by index and by the numeric views (R52 to R55). -/

theorem bit_not16 (a : Word) {i : Nat} (hi : i < 16) : bit (not16 a) i = !bit a i := by
  rw [not16, bit_lanes _ i hi, notGate_eq]

theorem bit_and16 (a b : Word) {i : Nat} (hi : i < 16) : bit (and16 a b) i = (bit a i && bit b i) := by
  rw [and16, bit_lanes _ i hi, andGate_eq]

theorem bit_or16 (a b : Word) {i : Nat} (hi : i < 16) : bit (or16 a b) i = (bit a i || bit b i) := by
  rw [or16, bit_lanes _ i hi, orGate_eq]

theorem uval_not16 (a : Word) : uval (not16 a) = 65535 - uval a := by
  rw [not16_eq]
  exact BitVec.toNat_not

/-- The signed view of a negated Word: the sign Bit is negated too, so its weight and the unsigned view change together. -/
theorem sval_not16 (a : Word) : sval (not16 a) = -sval a - 1 := by
  have bound : uval a < 65536 := a.isLt
  rw [sval, sval, uval_not16, bit_not16 a (by decide : 0 < 16)]
  cases bit a 0 <;> simp only [Bool.not_false, Bool.not_true, Bool.toNat_true, Bool.toNat_false] <;> omega

/-- Settles O4: `Not16` lane by lane, and its two numeric views. -/
theorem not16NegatesEveryLane : Obligations.Not16NegatesEveryLane :=
  fun a _ => ⟨not16 a, rfl, fun _ => bit_not16 a, uval_not16 a, sval_not16 a⟩

/-- Settles O5: `And16` and `Or16` lane by lane. -/
theorem and16AndOr16WorkLaneByLane : Obligations.And16AndOr16WorkLaneByLane :=
  fun a b _ => ⟨⟨and16 a b, rfl, fun _ => bit_and16 a b⟩, ⟨or16 a b, rfl, fun _ => bit_or16 a b⟩⟩

/-- Settles O6: every lane is chosen by the same selector, so `Mux16` gives one of its two Words whole. -/
theorem mux16SelectsAWord : Obligations.Mux16SelectsAWord := by
  intro a b sel s
  have selects : mux16 a b sel = if sel = O then a else b := by
    rw [mux16_eq]
    cases sel <;> rfl
  rw [← selects]
  rfl

/-! The reduction (R56). -/

theorem or8Way_iff (in0 in1 in2 in3 in4 in5 in6 in7 : Bit) :
    or8Way in0 in1 in2 in3 in4 in5 in6 in7 = I ↔ I ∈ [in0, in1, in2, in3, in4, in5, in6, in7] := by
  rw [or8Way_eq, List.any_eq_true]
  simp only [id_eq, exists_eq_right]

/-- Settles O7: the fold of `Or` is `I` exactly when one of the inputs is. -/
theorem or8WayIsTheOrOfItsInputs : Obligations.Or8WayIsTheOrOfItsInputs :=
  fun in0 in1 in2 in3 in4 in5 in6 in7 _ => ⟨_, rfl, or8Way_iff in0 in1 in2 in3 in4 in5 in6 in7⟩

end Sys2Proof.Machine

/-! Word arithmetic: what the adders answer, and the ripple of carries (R62 to R65). -/

namespace Sys2Proof.Machine

open Sys2Proof.Bit Sys2Proof.Statements

/-! The one-Bit adders (R62, R63). -/

/-- `2·carry + sum = a + b` (R62). -/
theorem halfAdder_sum (a b : Bit) : 2 * (halfAdder a b).1.toNat + (halfAdder a b).2.toNat = a.toNat + b.toNat := by
  rw [halfAdder_eq]
  cases a <;> cases b <;> rfl

/-- R63 in closed form: the carry is the majority of the inputs, and the sum is their parity. -/
theorem fullAdder_eq (a b c : Bit) : fullAdder a b c = (Bool.atLeastTwo a b c, a ^^ (b ^^ c)) := by
  cases a <;> cases b <;> cases c <;> rfl

theorem exec_fullAdder_of_eq {a b c carry sum : Bit} (h : fullAdder a b c = (carry, sum)) (s : State) :
    exec (.fullAdder a b c) s = .next { s with out := .carrySum carry sum } := by
  change execFullAdder a b c s = _
  rw [execFullAdder, h]
  rfl

/-- Settles O10: each adder's arithmetic law; the gates and the two half adders are the ones the adders are composed of. -/
theorem oneBitAddersAdd : Obligations.OneBitAddersAdd := by
  intro a b c s
  constructor
  · exact ⟨_, _, rfl, halfAdder_sum a b, (bitOut_and a b).symm, (bitOut_xor a b).symm⟩
  · exact ⟨_, _, rfl, fullAdder_sum a b c, _, _, _, rfl, rfl, (bitOut_or _ _).symm⟩

/-! `Add16` and `Inc16` by the numeric views, and the carries of the ripple (R64, R65). -/

theorem uval_add16 (a b : Word) : uval (add16 a b) = (uval a + uval b) % 65536 := by
  rw [add16_eq]
  exact BitVec.toNat_add a b

theorem sval_add16 (a b : Word) : sval (add16 a b) = Int.bmod (sval a + sval b) 65536 := by
  simp only [add16_eq, sval_eq_toInt]
  exact BitVec.toInt_add a b

/-- The carry out of index `i` of `Add16`, into index `i - 1` (R64): the carry out of the low `16 - i` Bits. -/
def carryOut (a b : Word) (i : Nat) : Bit := BitVec.carry (16 - i) a b false

/-- Nothing is carried into index 15 (R64). -/
theorem carryOut_sixteen (a b : Word) : carryOut a b 16 = O := BitVec.carry_zero

theorem carryOut_succ (a b : Word) (i : Nat) : carryOut a b (i + 1) = BitVec.carry (16 - 1 - i) a b false := by
  rw [carryOut, Nat.add_comm, ← Nat.sub_sub]

/-- The carry out of an index is the majority of its two Bits and the carry into it (R63). -/
theorem carryOut_eq (a b : Word) {i : Nat} (hi : i < 16) :
    carryOut a b i = Bool.atLeastTwo (bit a i) (bit b i) (carryOut a b (i + 1)) := by
  have weight : 16 - i = 16 - 1 - i + 1 := by omega
  rw [carryOut, weight, BitVec.carry_succ, carryOut_succ]
  simp only [bit, BitVec.getMsbD, hi, decide_true, Bool.true_and]

/-- The sum Bit at an index is the parity of its two Bits and the carry into it (R63). -/
theorem bit_add16 (a b : Word) {i : Nat} (hi : i < 16) :
    bit (add16 a b) i = (bit a i ^^ (bit b i ^^ carryOut a b (i + 1))) := by
  rw [add16_eq, carryOut_succ]
  exact BitVec.getMsbD_add (i_lt := hi)

/-- One stage of the ripple (R64): at every index a full adder gives the carry out and the sum Bit. -/
theorem fullAdder_carryOut (a b : Word) {i : Nat} (hi : i < 16) :
    fullAdder (bit a i) (bit b i) (carryOut a b (i + 1)) = (carryOut a b i, bit (add16 a b) i) := by
  rw [fullAdder_eq, ← carryOut_eq a b hi, ← bit_add16 a b hi]

/-- Settles O11: the two numeric views of the sum, and the full adder at every index. -/
theorem add16AddsModulo65536 : Obligations.Add16AddsModulo65536 := by
  intro a b s
  refine ⟨add16 a b, rfl, uval_add16 a b, sval_add16 a b, carryOut a b, carryOut_sixteen a b, ?_⟩
  intro i hi
  exact exec_fullAdder_of_eq (fullAdder_carryOut a b hi) s

/-- Settles O12: `Inc16` is `Add16` with `one16`, whose unsigned view is 1. -/
theorem inc16AddsOneModulo65536 : Obligations.Inc16AddsOneModulo65536 :=
  fun a _ => ⟨rfl, inc16 a, rfl, uval_add16 a one16⟩

end Sys2Proof.Machine

/-! The ALU's control codes: the pipeline each runs, the function each computes, and which of them compute one function
(R35, R36, R69 to R93). -/

namespace Sys2Proof.Machine

open Sys2Proof.Bit Sys2Proof.Statements

/-! Each step of the pipeline at each value of its control Bits (R69 to R72). -/

@[simp] theorem aluOperand_kept (v : Word) : aluOperand v O O = v := aluOperand_eq v O O

@[simp] theorem aluOperand_negated (v : Word) : aluOperand v O I = ~~~v := aluOperand_eq v O I

@[simp] theorem aluOperand_zeroed (v : Word) : aluOperand v I O = zero16 := aluOperand_eq v I O

@[simp] theorem aluOperand_zeroed_negated (v : Word) : aluOperand v I I = ones16 :=
  (aluOperand_eq v I I).trans (by decide : ~~~zero16 = ones16)

@[simp] theorem aluFunction_and (x2 y2 : Word) : aluFunction x2 y2 O = x2 &&& y2 := aluFunction_eq x2 y2 O

@[simp] theorem aluFunction_add (x2 y2 : Word) : aluFunction x2 y2 I = x2 + y2 := aluFunction_eq x2 y2 I

@[simp] theorem aluOut_kept (zx nx zy ny f : Bit) (x y : Word) :
    aluOut zx nx zy ny f O x y = aluFunction (aluOperand x zx nx) (aluOperand y zy ny) f :=
  aluOut_eq zx nx zy ny f O x y

@[simp] theorem aluOut_negated (zx nx zy ny f : Bit) (x y : Word) :
    aluOut zx nx zy ny f I x y = ~~~aluFunction (aluOperand x zx nx) (aluOperand y zy ny) f :=
  aluOut_eq zx nx zy ny f I x y

theorem aluFunction_comm (x2 y2 : Word) (f : Bit) : aluFunction x2 y2 f = aluFunction y2 x2 f := by
  cases f
  · simpa using BitVec.and_comm x2 y2
  · simpa using BitVec.add_comm x2 y2

/-- The pipeline treats its two operands alike: they may change places together with their control Bits. -/
theorem execAlu_comm (zx nx zy ny f no : Bit) (x y : Word) (s : State) :
    execAlu zx nx zy ny f no x y s = execAlu zy ny zx nx f no y x s := by
  simp only [execAlu, aluPorts, aluOut_eq, aluFunction_comm (aluOperand x zx nx)]

/-- An evaluation completes with its output Word and the flags of that Word (R73, R74). -/
theorem execAlu_eq_aluDone {zx nx zy ny f no : Bit} {x y out : Word} (h : aluOut zx nx zy ny f no x y = out) (s : State) :
    execAlu zx nx zy ny f no x y s = aluDone s out := by
  rw [execAlu, aluPorts, h, zeroFlag_eq_uval, negFlag_eq_sval]
  rfl

/-! From a packed code to the evaluation it stands for (R36). -/

/-- The instruction of a packed code runs the pipeline with the code's own six control Bits. -/
theorem exists_aluInstr (zx nx zy ny f no : Bit) (x y : Word) :
    ∃ i, aluInstr x y (aluCode zx nx zy ny f no) = some i ∧ ∀ s, exec i s = execAlu zx nx zy ny f no x y s := by
  cases zx <;> cases nx <;> cases zy <;> cases ny <;> cases f <;> cases no <;> exact ⟨_, rfl, fun _ => rfl⟩

theorem aluCode_lt (zx nx zy ny f no : Bit) : aluCode zx nx zy ny f no < aluRows := by
  revert zx nx zy ny f no
  decide

/-- Every number below 64 packs its own binary digits. -/
theorem aluCode_testBit : ∀ c < 64,
    aluCode (c.testBit 5) (c.testBit 4) (c.testBit 3) (c.testBit 2) (c.testBit 1) (c.testBit 0) = c := by
  decide

/-- Settles O13: the row's instruction runs the pipeline, whose steps have the closed forms of `aluOperand_eq`,
`aluFunction_eq` and `aluOut_eq`. -/
theorem aluRunsThePipelineForEveryCode : Obligations.AluRunsThePipelineForEveryCode := by
  intro zx nx zy ny f no x y s x1 x2 y1 y2 pre out
  obtain ⟨i, row, run⟩ := exists_aluInstr zx nx zy ny f no x y
  have steps : aluOut zx nx zy ny f no x y = out := by
    simp only [aluOut_eq, aluFunction_eq, aluOperand_eq, Bool.cond_eq_ite, out, pre, x1, x2, y1, y2]
  refine ⟨i, decode_alu (aluCode_lt ..) x y row, ?_⟩
  rw [run, ← steps, ← zeroFlag_eq]
  rfl

/-! The function of each code (R75 to R93). -/

/-- Settles O14: both operands are `zero16` or `ones16`, or one of them is `zero16` and the function is `And`. -/
theorem aluConstantCodes : Obligations.AluConstantCodes := by
  intro x y s
  and_intros <;> exact execAlu_eq_aluDone (by simp [ones16]) s

/-- Settles O17: the function is `And`, and its negation is the `Or` of the negated operands. -/
theorem aluBitwiseCodes : Obligations.AluBitwiseCodes := by
  intro x y s
  and_intros <;> exact execAlu_eq_aluDone (by simp [BitVec.not_and]) s

theorem add_ones16 (v : Word) : v + ones16 = v - 1 := by
  rw [ones16_eq, sub_eq_add_neg]

theorem word_one : word 1 = 1 := rfl

theorem word_two : word 2 = 2 := rfl

/-- Settles O15: `y` is zeroed, so the function gives `x` back or takes one from it; with `Not16(v) = -v - 1` the rest is
arithmetic modulo 2^16. -/
theorem aluCodesOfX : Obligations.AluCodesOfX := by
  intro x y s
  and_intros
  all_goals
    refine execAlu_eq_aluDone ?_ s
    simp only [aluOut_kept, aluOut_negated, aluFunction_and, aluFunction_add, aluOperand_kept, aluOperand_negated,
      aluOperand_zeroed, aluOperand_zeroed_negated, and_ones16, add_ones16, BitVec.add_zero, not_eq_neg_sub_one,
      word_add, word_sub, word_neg, word_uval, word_sval, word_one, word_two] <;>
    ring

/-- Settles O16: each code of `y` is a code of `x` with the operands in each other's place. -/
theorem aluCodesOfY : Obligations.AluCodesOfY := by
  intro x y s
  obtain ⟨h001010, h001011, h001100, h001101, h001110, h001111, h011010, h011011, h011100, h011101, h011110, h011111⟩ :=
    aluCodesOfX y x s
  exact ⟨(execAlu_comm ..).trans h001010, (execAlu_comm ..).trans h001011, (execAlu_comm ..).trans h011010,
    (execAlu_comm ..).trans h011011, (execAlu_comm ..).trans h001100, (execAlu_comm ..).trans h001101,
    (execAlu_comm ..).trans h001110, (execAlu_comm ..).trans h001111, (execAlu_comm ..).trans h011100,
    (execAlu_comm ..).trans h011101, (execAlu_comm ..).trans h011110, (execAlu_comm ..).trans h011111⟩

/-- Settles O18: the function is the sum, and with `Not16(v) = -v - 1` the rest is arithmetic modulo 2^16. -/
theorem aluSumCodes : Obligations.AluSumCodes := by
  intro x y s
  and_intros
  all_goals
    refine execAlu_eq_aluDone ?_ s
    simp only [aluOut_kept, aluOut_negated, aluFunction_add, aluOperand_kept, aluOperand_negated, not_eq_neg_sub_one,
      word_add, word_sub, word_neg, word_uval, word_one, word_two] <;>
    ring

/-! Which codes compute one function (R75). -/

theorem aluWord_aluCode (zx nx zy ny f no : Bit) (x y : Word) :
    aluWord (aluCode zx nx zy ny f no) x y = some (aluOut zx nx zy ny f no x y) := by
  obtain ⟨i, row, run⟩ := exists_aluInstr zx nx zy ny f no x y
  simp only [aluWord, row, outputs_singleton (run State.reset)]
  rfl

theorem aluWord_eq {c : Nat} (h : c < 64) (x y : Word) :
    aluWord c x y =
      some (aluOut (c.testBit 5) (c.testBit 4) (c.testBit 3) (c.testBit 2) (c.testBit 1) (c.testBit 0) x y) := by
  rw [← aluWord_aluCode, aluCode_testBit c h]

/-- The codes of one class give one Word: `zero16`, `ones16`, `x`, `~~~x`, `y` and `~~~y`, class by class. -/
theorem aluWord_of_mem_aluClasses (x y : Word) : ∀ cls ∈ aluClasses, ∃ w, ∀ c ∈ cls, aluWord c x y = some w := by
  simp only [aluClasses, List.forall_mem_cons]
  refine ⟨⟨zero16, ?_⟩, ⟨ones16, ?_⟩, ⟨x, ?_⟩, ⟨~~~x, ?_⟩, ⟨y, ?_⟩, ⟨~~~y, ?_⟩, by simp⟩ <;>
    simp [aluWord_eq, Nat.testBit_eq_decide_div_mod_eq, ones16_and, and_ones16, ones16]

/-- One pair of operands tells apart every two codes that are not of one class. -/
theorem aluWord_separates : ∀ c < 64, ∀ d < 64,
    aluWord c 6 18 ≠ aluWord d 6 18 ∨ c = d ∨ ∃ cls ∈ aluClasses, c ∈ cls ∧ d ∈ cls := by
  decide +kernel

/-- Settles O19: codes of one class give one Word for all operands, and the others differ at the operands of
`aluWord_separates`. -/
theorem aluCodesThatComputeOneFunction : Obligations.AluCodesThatComputeOneFunction := by
  intro c d hc hd
  refine ⟨fun x y => by simp [aluWord_eq hc], fun same => ?_, ?_⟩
  · exact (aluWord_separates c hc d hd).resolve_left (not_not_intro (same 6 18))
  · rintro (rfl | ⟨cls, mem, hcls, hdls⟩) x y
    · rfl
    · obtain ⟨w, word⟩ := aluWord_of_mem_aluClasses x y cls mem
      exact (word c hcls).trans (word d hdls).symm

end Sys2Proof.Machine

/-! Clocked storage: what each event of a Clock and a DFF does (R96 to R101), and what a DFF holds and shows after any
number of inputs in `Tick` (R102, R119). -/

namespace Sys2Proof.Machine

open Sys2Proof.Bit Sys2Proof.Statements

/-! Reading and writing one Clock or DFF. -/

theorem dffs_setDff_self {s : State} {d : Nat} {f : Dff} (hf : s.dffs[d]? = some f) (g : Dff) :
    (s.setDff d g).dffs[d]? = some g := by
  obtain ⟨hd, -⟩ := List.getElem?_eq_some_iff.mp hf
  exact List.getElem?_set_self hd

theorem clocks_setClock_self {s : State} {c : Nat} {p : Phase} (hp : s.clocks[c]? = some p) (q : Phase) :
    (s.setClock c q).clocks[c]? = some q := by
  obtain ⟨hc, -⟩ := List.getElem?_eq_some_iff.mp hp
  exact List.getElem?_set_self hc

/-- Writing back what a DFF holds changes nothing. -/
theorem setDff_eq_self {s : State} {d : Nat} {f : Dff} (hf : s.dffs[d]? = some f) : s.setDff d f = s := by
  obtain ⟨hd, rfl⟩ := List.getElem?_eq_some_iff.mp hf
  simp [State.setDff]

/-- Writing back the phase of a Clock changes nothing. -/
theorem setClock_eq_self {s : State} {c : Nat} {p : Phase} (hp : s.clocks[c]? = some p) : s.setClock c p = s := by
  obtain ⟨hc, rfl⟩ := List.getElem?_eq_some_iff.mp hp
  simp [State.setClock]

@[simp] theorem setDff_setDff (s : State) (d : Nat) (f g : Dff) : (s.setDff d f).setDff d g = s.setDff d g := by
  simp [State.setDff]

@[simp] theorem setClock_setClock (s : State) (c : Nat) (p q : Phase) :
    (s.setClock c p).setClock c q = s.setClock c q := by
  simp [State.setClock]

@[simp] theorem phaseNext_phaseNext (p : Phase) : phaseNext (phaseNext p) = p := by
  cases p <;> rfl

/-! Each event (R96, R97, R99 to R101). -/

/-- Two `next` calls on one Clock restore the state but for the outputs (R96). -/
theorem runAll_clockNext_twice {s : State} {c : Nat} {p : Phase} (hp : s.clocks[c]? = some p) :
    runAll [.clockNext c, .clockNext c] s = s.complete .nothing := by
  rw [runAll_pair_of_complete (exec_clockNext hp), exec_clockNext (clocks_setClock_self hp _), setClock_setClock,
    phaseNext_phaseNext, setClock_eq_self hp]

/-- Settles O23: `next` writes `phaseNext` of the phase, and `phaseNext` is its own inverse. -/
theorem clockNextTogglesThePhase : Obligations.ClockNextTogglesThePhase := by
  intro s c
  exact ⟨exec_clockNext, exec_clockNext, fun hc => runAll_clockNext_twice (List.getElem?_eq_getElem hc)⟩

/-- Settles O24: `phase` completes in the state it reads. -/
theorem clockPhaseReadsThePhase : Obligations.ClockPhaseReadsThePhase :=
  fun _ _ _ => exec_clockPhase

/-- Settles O26: in `Tick`, `dffAfterInput` moves `pending` to `committed` and takes the given value. -/
theorem dffInputInTickCommitsThenLatches : Obligations.DffInputInTickCommitsThenLatches :=
  fun _ _ _ value _ => exec_dffInput value

/-- Settles O27: in `Tock`, `dffAfterInput` gives the DFF back, and writing back what it holds changes nothing. -/
theorem dffInputInTockDoesNothing : Obligations.DffInputInTockDoesNothing := by
  intro s d c value f hf tock
  have kept : s.setDff d (dffAfterInput .tock value f) = s := setDff_eq_self hf
  rw [exec_dffInput value hf tock, kept]
  rfl

/-- Settles O28: `dffVisible` is `committed` in `Tick` and `pending` in `Tock`. -/
theorem dffOutputReadsTheVisibleField : Obligations.DffOutputReadsTheVisibleField :=
  fun _ _ _ _ hf => ⟨exec_dffOutput hf, exec_dffOutput hf⟩

/-! The fields of a DFF after inputs in `Tick` (R99, R119). -/

/-- A DFF after the inputs `vs` in order, each in `Tick`. -/
def latchAll (vs : List Bit) (f : Dff) : Dff := vs.foldl (fun g v => dffAfterInput .tick v g) f

@[simp] theorem latchAll_nil (f : Dff) : latchAll [] f = f := rfl

@[simp] theorem latchAll_cons (v : Bit) (vs : List Bit) (f : Dff) :
    latchAll (v :: vs) f = latchAll vs { committed := f.pending, pending := v } := rfl

theorem latchAll_append_singleton (us : List Bit) (u : Bit) (f : Dff) :
    latchAll (us ++ [u]) f = { committed := (latchAll us f).pending, pending := u } := by
  simp [latchAll, dffAfterInput]

/-- The last input is pending; with no input, what was. -/
theorem latchAll_pending (vs : List Bit) (f : Dff) : (latchAll vs f).pending = vs.getLastD f.pending := by
  induction vs generalizing f with
  | nil => rfl
  | cons v vs ih => rw [latchAll_cons, ih, List.getLastD_cons]

/-- With the two fields written before the inputs, the last two of the list are the fields afterwards. -/
theorem getElem?_latchAll (vs : List Bit) (f : Dff) :
    (f.committed :: f.pending :: vs)[vs.length]? = some (latchAll vs f).committed ∧
    (f.committed :: f.pending :: vs)[vs.length + 1]? = some (latchAll vs f).pending := by
  induction vs generalizing f with
  | nil => exact ⟨rfl, rfl⟩
  | cons v vs ih => exact ih { committed := f.pending, pending := v }

/-! Runs of inputs. One input and one cycle of R102 both write the DFF alone, so they repeat alike. -/

theorem runAll_append_of_next {is : List Instr} {s t : State} (h : runAll is s = .next t) (js : List Instr) :
    runAll (is ++ js) s = runAll js t := by
  induction is generalizing s with
  | nil => cases h; rfl
  | cons i is ih =>
    rw [List.cons_append]
    cases hi : exec i s with
    | next u =>
      rw [runAll_cons_of_next hi] at h ⊢
      exact ih h
    | fault r => simp [runAll, andThen, hi] at h
    | refused r => simp [runAll, andThen, hi] at h

theorem outputs_append_of_next {is : List Instr} {s t : State} (h : runAll is s = .next t) (js : List Instr) :
    outputs (is ++ js) s = outputs js t := by
  simp only [outputs, runAll_append_of_next h]

/-- With the Clock in `Tick`, the instructions for a value latch it into the DFF and change nothing else. -/
def Latches (d c : Nat) (block : Bit → List Instr) : Prop :=
  ∀ (s : State) (f : Dff) (v : Bit), s.dffs[d]? = some f → s.clocks[c]? = some .tick →
    runAll (block v) s = (s.setDff d (dffAfterInput .tick v f)).complete .nothing

theorem dffInput_latches (d c : Nat) : Latches d c (fun v => [.dffInput d v c]) := by
  intro s f v hf tick
  rw [runAll_singleton, exec_dffInput v hf tick]

/-- `next` commits nothing, and twice it restores the phase (R96). -/
theorem cycle_latches (d c : Nat) : Latches d c (cycle d c) := by
  intro s f v hf tick
  rw [cycle, runAll_cons_of_next (exec_dffInput v hf tick)]
  exact runAll_clockNext_twice tick

/-- What latches one value latches any number in order; the outputs left are those of the last operation, if any. -/
theorem Latches.runAll_flatMap {d c : Nat} {block : Bit → List Instr} (h : Latches d c block) (vs : List Bit) {s : State}
    {f : Dff} (hf : s.dffs[d]? = some f) (tick : s.clocks[c]? = some .tick) :
    ∃ o, runAll (vs.flatMap block) s = (s.setDff d (latchAll vs f)).complete o := by
  induction vs generalizing s f with
  | nil =>
    refine ⟨s.out, ?_⟩
    rw [latchAll_nil, setDff_eq_self hf]
    rfl
  | cons v vs ih =>
    obtain ⟨o, rest⟩ := ih (s := (s.setDff d (dffAfterInput .tick v f)).setOut .nothing) (dffs_setDff_self hf _) tick
    have overwritten := setDff_setDff s d (dffAfterInput .tick v f) (latchAll (v :: vs) f)
    refine ⟨o, ?_⟩
    rw [List.flatMap_cons, runAll_append_of_next (h s f v hf tick), rest, ← overwritten]
    rfl

/-- Settles O29: by induction on the inputs, the DFF holds `latchAll` of them, and each input commits the one before it. -/
theorem everyInputInATickCommits : Obligations.EveryInputInATickCommits := by
  intro s d c us u f hf tick
  obtain ⟨o, run⟩ := (dffInput_latches d c).runAll_flatMap (us ++ [u]) hf tick
  refine ⟨(s.setDff d (latchAll (us ++ [u]) f)).setOut o, ?_, ?_, rfl⟩
  · rw [List.map_eq_flatMap]
    exact run
  · simp [latchAll_append_singleton, latchAll_pending]

/-! What `DFF.output` shows around one more input (R101, R102). -/

section Output

variable {s : State} {d c : Nat} {f : Dff}

/-- After an input in `Tick`, the value that was pending shows. -/
theorem outputs_dffInput_dffOutput (hf : s.dffs[d]? = some f) (tick : s.clocks[c]? = some .tick) (v : Bit) :
    outputs [.dffInput d v c, .dffOutput d c] s = some (.bit f.pending) :=
  (outputs_cons_of_next (exec_dffInput v hf tick) _).trans (outputs_dffOutput (dffs_setDff_self hf _) tick)

/-- In the `Tock` that follows, the given value shows. -/
theorem outputs_dffInput_clockNext_dffOutput (hf : s.dffs[d]? = some f) (tick : s.clocks[c]? = some .tick) (v : Bit) :
    outputs [.dffInput d v c, .clockNext c, .dffOutput d c] s = some (.bit v) := by
  have toggled := exec_clockNext (s := (s.setDff d (dffAfterInput .tick v f)).setOut .nothing) tick
  rw [outputs_cons_of_next (exec_dffInput v hf tick), outputs_cons_of_next toggled]
  refine outputs_dffOutput (f := dffAfterInput .tick v f) (p := .tock) ?_ ?_
  · exact dffs_setDff_self hf _
  · exact clocks_setClock_self tick _

end Output

/-- Settles O30: after the cycles the Clock is in `Tick` and the DFF holds the last two of `O, O, v_1, …, v_n`. -/
theorem oneInputPerTickDelaysByOneCycle : Obligations.OneInputPerTickDelaysByOneCycle := by
  intro s d c vs v hf tick
  obtain ⟨o, cycles⟩ := (cycle_latches d c).runAll_flatMap vs hf tick
  obtain ⟨committed, pending⟩ := getElem?_latchAll vs ⟨O, O⟩
  have held : ((s.setDff d (latchAll vs ⟨O, O⟩)).setOut o).dffs[d]? = some (latchAll vs ⟨O, O⟩) := dffs_setDff_self hf _
  simp only [outputs_append_of_next cycles, committed, pending, Option.map_some]
  exact ⟨outputs_dffOutput held tick, outputs_dffInput_dffOutput held tick v,
    outputs_dffInput_clockNext_dffOutput held tick v⟩

end Sys2Proof.Machine

/-! The fault record: what sets it, and what the fault state does (R103 to R105). -/

namespace Sys2Proof.Machine

/-- Each of the five things an instruction can do writes Clocks, DFFs or the outputs alone (R104). -/
theorem exec_fault {i : Instr} {s t : State} (h : exec i s = .next t) : t.fault = s.fault := by
  cases exec_cases h with
  | read v _ eq => simp [eq]
  | newClock _ _ eq => simp [eq]
  | tickClock c p _ _ eq => simp [eq]
  | newDff _ _ eq => simp [eq]
  | writeDff d b c f p _ _ _ eq => simp [eq]

/-- Settles O36: no branch of `exec` answers a fault, and none of its five effects writes the fault record. -/
theorem noInstructionFaults : Obligations.NoInstructionFaults :=
  fun i s => ⟨exec_ne_fault i s, fun _ => exec_fault⟩

/-- Only entering the fault state writes the fault record, and it writes nothing else (R103, R105). -/
theorem runStmt_fault {st : Stmt} {s t : State} (h : runStmt st s = .next t) :
    t.fault = s.fault ∨ ∃ causes, t = s.enterFault causes := by
  cases runStmt_cases h with
  | issued i run => exact .inl (exec_fault run)
  | created i n u run eq => exact .inl (by rw [eq, State.bind_fault, exec_fault run])
  | bound n v _ eq => exact .inl (by simp [eq])
  | chose p eq => exact .inl (by simp [eq])
  | faulted causes _ eq => exact .inr ⟨causes, eq⟩

/-- The fault state takes no step (R105). -/
theorem step_of_fault {s : State} {causes : List FaultReason} (h : s.fault = some causes) :
    step s = .fault (.halted causes) := by
  simp [step, driverStep, h]

/-- Settles O39: a step starts with no fault recorded, so one that ends with a record entered the fault state, which writes
the record alone. -/
theorem aFaultIsPreciseAndTerminal : Obligations.AFaultIsPreciseAndTerminal := by
  refine ⟨fun s t hstep faulted => ?_, fun _ _ => step_of_fault⟩
  obtain ⟨clear, ⟨-, rfl⟩ | ⟨st, rest, -, run⟩⟩ := step_cases hstep
  · exact absurd clear faulted
  · obtain kept | ⟨causes, rfl⟩ := runStmt_fault run
    · exact absurd (kept.trans clear) faulted
    · exact ⟨rfl, rfl⟩

end Sys2Proof.Machine

/-! The reset state (R113, R114). -/

namespace Sys2Proof.Machine

/-- Settles O41: with no Clock and no DFF both counts are 0, with no fault and no names there is nothing to check, and the outputs
`.nothing` refer to neither a Clock nor a DFF. -/
theorem resetMeetsTheInvariant : Obligations.ResetMeetsTheInvariant := fun cfg =>
  { clocksBounded := by simp
    dffsBounded := by simp
    faultLegal := by simp [faultLegal]
    namesExist := by simp
    outExists := by simp [refsExist] }

/-- Settles O42: the reset state is the empty machine for the default bounds, and each field is the empty machine's. -/
theorem aRunBeginsEmpty : Obligations.ARunBeginsEmpty :=
  ⟨State.resetWith_clocks .default, State.resetWith_dffs .default, State.resetWith_fault .default,
    State.resetWith_program .default⟩

end Sys2Proof.Machine
